-- ==== Sys2Proof/Word.lean ====
section
/-! DEFINITION. The two word types of the block: the data byte and the CMD9 command word (30_encoding.md R70). -/

namespace Sys2Proof

/-- The data byte of a command, 8 bits, unsigned (R30, R70). -/
abbrev Byte := BitVec 8

/-- A CMD9 command word: bit 8 is the mode, bits [7:0] the data byte (R70). -/
abbrev CmdWord := BitVec 9

end Sys2Proof
end

