-- ==== Sys2Proof/Syntax.lean ====
section
/-! DEFINITION. The two commands of the block, one constructor per row of spec/opcode_table.json (R2, R72). -/

namespace Sys2Proof

/-- A command. Its only operand is the byte to transmit (R21, R71). -/
inductive Instr where
  /-- TXL: transmit in loader mode (R160). -/
  | txl (imm8 : Byte)
  /-- TXC: transmit in command mode (R161). -/
  | txc (imm8 : Byte)
  deriving DecidableEq, Repr

end Sys2Proof
end

