-- ==== Sys2Proof/WellFormed.lean ====
section
/-! DEFINITION. Well-formed operands and commands. Every 9-bit word is a command (R73), so the only check is the
assembler's: an operand written as a number must lie in 0 to 255 (R80). The check on a configuration is
`Machine.admitted` in Sys2Proof/Machine/Timing.lean. -/

namespace Sys2Proof

/-- "`<imm8>` is an unsigned integer from 0 to 255 ... Any other value is an assembly error" (R80). -/
def operandInRange (value : Nat) : Bool :=
  decide (value ≤ 255)

/-- A command is well formed when its operand is in range; the type `Byte` admits no other (R73). -/
def Instr.wellFormed : Instr → Bool
  | .txl imm8 => operandInRange imm8.toNat
  | .txc imm8 => operandInRange imm8.toNat

end Sys2Proof
end

