-- ==== Sys2Proof/Decode.lean ====
section
/-! DEFINITION. The CMD9 decoder and encoder (30_encoding.md R70 to R74). A command word has nine bits and every word is
a command; a number with a bit above bit 8 is no command word and is rejected by name. -/

namespace Sys2Proof

/-- Why a row of bits is no command. -/
inductive DecodeError where
  /-- A bit above bit 8 is set: "Every command word is 9 bits long" (R74). -/
  | notNineBits (bits : Nat)
  deriving DecidableEq, Repr

/-- Bit 8 alone selects the command; bits [7:0] are the operand (R71, R72). -/
def decode (word : CmdWord) : Instr :=
  if word.getLsbD 8 then .txc (word.extractLsb' 0 8) else .txl (word.extractLsb' 0 8)

/-- The decoder on any row of bits, given as a number with bit 0 least significant (R11). -/
def decodeBits (bits : Nat) : Except DecodeError Instr :=
  if bits < 2 ^ 9 then .ok (decode (BitVec.ofNat 9 bits)) else .error (.notNineBits bits)

/-- The command word of a command: `0x000 | imm8` or `0x100 | imm8` (R80). -/
def encode : Instr → CmdWord
  | .txl imm8 => 0#1 ++ imm8
  | .txc imm8 => 1#1 ++ imm8

/-- The command the decoder reads from the `nbits` low bits of `w`, numbered as spec/opcode_table.json numbers them;
bits at and above `nbits` are 0 (log entry 16). -/
def decodeTableWord (nbits w : Nat) : Option Instr :=
  (decodeBits (w % 2 ^ nbits)).toOption

end Sys2Proof
end

