-- ==== Sys2Proof/Config.lean ====
section
/-! DEFINITION. The implementation parameters (00_scope.md R5), the agents' moves (R8), and the free values: the
values the spec leaves at `any` (93_implementation_defined.md), each an opaque function of a counter of State. -/

namespace Sys2Proof

/-- The implementation parameters of R5. State holds one value of this type and no step changes it, so a claim about
every state is a claim about every configuration (log entry 1). -/
structure Config where
  /-- `CLK_HZ`: system clock frequency in Hz; OPEN (D5). -/
  clkHz : Nat
  /-- `PRESCALE`: system clock cycles per timer tick. -/
  prescale : Nat
  /-- `DEADLINE_US[0..5]`: the deadlines in microseconds of elapsed time (R78). -/
  deadlineUs : Vector Nat 6
  /-- `OFFSET_TICKS`: the counter value the timer reset loads (R106). -/
  offsetTicks : Int
  /-- `CNT_WIDTH`: width in bits of the timer counter; OPEN (R110, D7). -/
  cntWidth : Nat
  /-- `LAT_MAX`: the largest number of ticks between a deadline and its action (R109). -/
  latMax : Nat
  /-- `SENSE_RESET`: level of the sense line after reset; OPEN (D4). -/
  senseReset : Bool
  /-- `GIE_RESET`: the system's interrupt enable after reset; OPEN (D4). -/
  gieReset : Bool
  /-- `MOTOR_ACTIVE_LEVEL`: the electrical level of the motor input that means abort; OPEN (D15). -/
  motorActiveLevel : Bool
  deriving DecidableEq, Repr

/-- The configuration the model is instantiated with after reset: the source's defaults, `LAT_MAX = 0` for this
hardware (R5, R109), and for the OPEN parameters the spec's example clock (D28) and the values log entry 2 names.
DESIGN CHOICE for the OPEN ones. -/
def Config.reference : Config where
  clkHz := 16000000
  prescale := 8
  deadlineUs := #v[4, 13, 22, 31, 41, 53]
  offsetTicks := -1
  cntWidth := 16
  latMax := 0
  senseReset := false
  gieReset := false
  motorActiveLevel := true

/-- One atomic step of one agent (R8, R9), as a choice of the schedule. -/
inductive Move where
  /-- `SEQ` performs its next state action, if its guard holds (R120). -/
  | seq
  /-- `TIMER` ticks, if it may (R100, R109). -/
  | timer
  /-- `HOST` pulls the write line low (`true`) or releases it (`false`) (R34, D14). -/
  | host (pull : Bool)
  /-- `MOTOR` sets the electrical level of the motor pin (R34, R51). -/
  | motor (level : Bool)
  /-- `CALLER` presents the next command word of its program on the port (R51, R162). -/
  | caller
  /-- The system writes `GIE`, which it may only while the block is idle (R64, D29). -/
  | system (enable : Bool)
  /-- A reset event (R200), a step of its own (R183). -/
  | reset
  deriving DecidableEq, Repr, Inhabited

/-- The move that comes next once the schedule of State is used up: any agent (R9, U18). A free value. -/
opaque Config.freeMove : Nat → Move

/-- What the counter holds after a stop or a reset: any value (R103, R37, U1, U2). A free value. -/
opaque Config.freeCnt : Nat → Int

/-- What `DATA` holds after a reset event: any value (R37, U3). A free value. -/
opaque Config.freeData : Nat → Byte

/-- What `MODE` holds after a reset event: any value (R37, U3). A free value. -/
opaque Config.freeMode : Nat → Bool

/-- What a read of the floating write line returns: any level, drawn anew at every read (R52, R54, U6). A free value. -/
opaque Config.freeLevel : Nat → Bool

end Sys2Proof
end

