-- ==== Sys2Proof/Machine/State.lean ====
section
/-! DEFINITION. The state of the block: its ten registers (10_state.md R20), the inputs of its ports (R34), its
configuration (R5), and the model's own schedule and free-value counter; the faults and refusals; the state after reset. -/

namespace Sys2Proof.Machine

/-- The values of `MODE` (R31): 0 is `Loader`, 1 is `CommandMode`. -/
inductive Mode where
  | loader
  | commandMode
  deriving DecidableEq, Repr

/-- The values of the 4-bit register `STATE` (R29): codes 0 to 9, and the unreachable codes 10 to 15. -/
inductive SeqState where
  | idle | waitHs | arm | slot0 | slot1 | slot2 | slot3 | release | settle | waitRearm
  /-- Code `10 + offset`: "unreachable" (R29, R133). -/
  | unused (offset : Fin 6)
  deriving DecidableEq, Repr

/-- The values of the 2-bit field `OUTCOME` (R33). -/
inductive TxOutcome where
  /-- Code 0, `NONE`. -/
  | none
  /-- Code 1, `SENT`. -/
  | sent
  /-- Code 2, `ABORTED`. -/
  | aborted
  /-- Code 3, "never written". -/
  | unused
  deriving DecidableEq, Repr

/-- The machine. Bits are `Bool`s, 1 is `true` (R11). -/
structure State where
  /-- `SENSE_OUT`: level driven on the sense line (R23). -/
  senseOut : Bool
  /-- `WR_DIR`: direction of the write line, `true` is output (R24). -/
  wrDir : Bool
  /-- `WR_LATCH`: output level of the write line, or its pull-up enable (R25). -/
  wrLatch : Bool
  /-- `CNT`: the timer count, a signed value of `CNT_WIDTH` bits (R26; log entry 11). -/
  cnt : Int
  /-- `TMR_RUN`: the timer runs (R27). -/
  tmrRun : Bool
  /-- `GIE`: the system-wide interrupt enable (R28). -/
  gie : Bool
  /-- `STATE`: the sequencer state, in the place of a program counter (R22, R29). -/
  seqState : SeqState
  /-- `DATA`: the byte of the current command (R30). -/
  data : Byte
  /-- `MODE`: the mode of the current command (R31). -/
  mode : Mode
  /-- `OUTCOME`: the result of the last command (R33). -/
  outcome : TxOutcome
  /-- Input `HOST_PULL`: the host pulls the write line low (R34). -/
  hostPull : Bool
  /-- Input `motor`: the electrical level of the motor pin (R51). -/
  motor : Bool
  /-- The CALLER holds the head of `program` on the command port (R34, R51, R162). -/
  presenting : Bool
  /-- The command words the CALLER has not had accepted yet, the next one first (R162). -/
  program : List CmdWord
  /-- The implementation parameters (R5; log entry 1). -/
  cfg : Config
  /-- The model's own: which agent moves next, the next move first (R9, U18; log entry 8). -/
  schedule : List Move
  /-- The model's own: how many free values have been drawn (log entry 5). -/
  draws : Nat
  deriving DecidableEq, Repr

/-- The two model-level faults (60_exceptions.md R180). Each is safe: the model stops where it no longer describes
the hardware. -/
inductive Fault where
  /-- `BUS_CONTENTION`, code 1: the block drives the write line while the host pulls it low (R53). Raised by
  `checked`, before or after any step of any agent. Safe. -/
  | busContention
  /-- `BAD_STATE`, code 2: `STATE` holds 10 to 15 (R133). Raised by `checked`. Safe. -/
  | badState
  deriving DecidableEq, Repr

/-- Why the model takes no step. -/
inductive Refusal where
  /-- An instruction without a meaning yet; raised by an arm of `exec` alone. No arm does. Safe. -/
  | notModelled (mnemonic : String)
  /-- The configuration breaks R5, R78 or R110: "a model must not instantiate it". Raised by `checked`. Safe. -/
  | badConfig
  deriving DecidableEq, Repr

/-- The machine right after reset (10_state.md R37), with the configuration `Config.reference`. `CNT`, `DATA` and
`MODE` are unspecified there and hold the values log entry 3 names; the inputs hold those of log entry 7. -/
def State.reset : State where
  senseOut := Config.reference.senseReset
  wrDir := false
  wrLatch := true
  cnt := 0
  tmrRun := false
  gie := Config.reference.gieReset
  seqState := .idle
  data := 0
  mode := .loader
  outcome := .none
  hostPull := false
  motor := !Config.reference.motorActiveLevel
  presenting := false
  program := []
  cfg := Config.reference
  schedule := []
  draws := 0

end Sys2Proof.Machine
end

