-- ==== Sys2Proof/Machine/Operands.lean ====
section
/-! DEFINITION. Codes of the registers (R29, R31, R33), the wire encoding of a command: bit pairs and mode polarity
(30_encoding.md R76, R77), and the receiver's decode that inverts the pairs (R79). -/

namespace Sys2Proof.Machine

/-- The bit of `MODE` (R31). -/
def modeBit : Mode → Bool
  | .loader => false
  | .commandMode => true

/-- The mode a bit stands for (R31). -/
def modeOfBit (b : Bool) : Mode :=
  if b then .commandMode else .loader

/-- The code of `STATE` (R29). -/
def seqCode : SeqState → BitVec 4
  | .idle => 0
  | .waitHs => 1
  | .arm => 2
  | .slot0 => 3
  | .slot1 => 4
  | .slot2 => 5
  | .slot3 => 6
  | .release => 7
  | .settle => 8
  | .waitRearm => 9
  | .unused offset => BitVec.ofNat 4 (10 + offset.val)

/-- The value of `STATE` with a given code (R29). -/
def seqOfCode (code : BitVec 4) : SeqState :=
  match code.toNat with
  | 0 => .idle
  | 1 => .waitHs
  | 2 => .arm
  | 3 => .slot0
  | 4 => .slot1
  | 5 => .slot2
  | 6 => .slot3
  | 7 => .release
  | 8 => .settle
  | 9 => .waitRearm
  | n => .unused (Fin.ofNat 6 (n - 10))

/-- The code of `OUTCOME` (R33). -/
def outcomeCode : TxOutcome → BitVec 2
  | .none => 0
  | .sent => 1
  | .aborted => 2
  | .unused => 3

/-- `ARM_POL(m) = m`: the sense level driven at ARM (R77). -/
def armPol (m : Mode) : Bool := modeBit m

/-- `TERM_POL(m) = not m`: the sense level driven at the end (R77). -/
def termPol (m : Mode) : Bool := !modeBit m

/-- The bit `sense` carries in bit-slot `k`: D[5], D[7], D[1], D[3] (R76). -/
def pairSense (d : Byte) (k : Fin 4) : Bool :=
  match k with
  | 0 => d.getLsbD 5
  | 1 => d.getLsbD 7
  | 2 => d.getLsbD 1
  | 3 => d.getLsbD 3

/-- The bit `write` carries in bit-slot `k`: D[4], D[6], D[0], D[2] (R76). -/
def pairWrite (d : Byte) (k : Fin 4) : Bool :=
  match k with
  | 0 => d.getLsbD 4
  | 1 => d.getLsbD 6
  | 2 => d.getLsbD 0
  | 3 => d.getLsbD 2

/-- The byte a receiver recovers from the pairs it sampled: `{s_1, w_1, s_0, w_0, s_3, w_3, s_2, w_2}`, bit 7
first (R79). -/
def receive (s0 w0 s1 w1 s2 w2 s3 w3 : Bool) : Byte :=
  BitVec.ofBool s1 ++ BitVec.ofBool w1 ++ BitVec.ofBool s0 ++ BitVec.ofBool w0 ++
    BitVec.ofBool s3 ++ BitVec.ofBool w3 ++ BitVec.ofBool s2 ++ BitVec.ofBool w2

end Sys2Proof.Machine
end

