-- ==== Sys2Proof/Machine/Flags.lean ====
section
/-! DEFINITION. The status indications. The block has no arithmetic flags and no condition codes (R36); its only
status is `BUSY` (R32), its complement `cmd_ready` (R51), and `OUTCOME` (R33), which State holds. -/

namespace Sys2Proof.Machine

/-- `BUSY = (STATE != IDLE)`, derived, not stored (R32). -/
def State.busy (s : State) : Bool :=
  decide (s.seqState ≠ .idle)

/-- The command port's ready signal, `not BUSY` (R32, R51). -/
def State.cmdReady (s : State) : Bool := !s.busy

/-- `STATE` holds an unreachable code, 10 to 15 (R29, R133). -/
def State.badCode (s : State) : Bool :=
  match s.seqState with
  | .unused _ => true
  | _ => false

end Sys2Proof.Machine
end

