-- ==== Sys2Proof/Machine/Timing.lean ====
section
/-! DEFINITION. The timer's arithmetic: signed counter values, the offset and the tick thresholds (41_timer.md R104 to
R106), and which configurations a model may be instantiated with (R5, R78, R110). -/

namespace Sys2Proof.Machine

/-- Microseconds in a second, the `10^6` of R105 and R106. -/
def microsPerSecond : Nat := 1000000

/-- The value of the low `width` bits of `x`, read as a signed two's-complement number: `sext` (R11, R26, R104). -/
def signedValue (width : Nat) (x : Int) : Int :=
  x.bmod (2 ^ width)

/-- `OFFSET_TICKS = -floor(CLK_HZ / (2 * PRESCALE * 10^6))` (R106). -/
def defaultOffset (c : Config) : Int :=
  -((c.clkHz / (2 * c.prescale * microsPerSecond) : Nat) : Int)

/-- `T_k = ceil(DEADLINE_US[k] * CLK_HZ / (PRESCALE * 10^6))` (R105). -/
def threshold (c : Config) (k : Fin 6) : Nat :=
  (c.deadlineUs[k] * c.clkHz + (c.prescale * microsPerSecond - 1)) / (c.prescale * microsPerSecond)

/-- The elapsed time in µs of a count of ticks: `Elapsed() * PRESCALE * 10^6 / CLK_HZ` (R104). -/
def elapsedMicros (c : Config) (ticks : Int) : Rat :=
  (ticks * c.prescale * microsPerSecond : Int) / (c.clkHz : Rat)

/-- `CLK_HZ >= PRESCALE * 10^6` (R5, D5); a tick is at least one clock cycle (DEDUCED, log entry 12). -/
def clockAdmitted (c : Config) : Bool :=
  decide (0 < c.prescale) && decide (c.prescale * microsPerSecond ≤ c.clkHz)

/-- The deadlines are "strictly increasing and `d_0 > 0`" (R78, U13). -/
def deadlinesAdmitted (c : Config) : Bool :=
  decide (0 < c.deadlineUs[0]) && decide (c.deadlineUs[0] < c.deadlineUs[1]) &&
    decide (c.deadlineUs[1] < c.deadlineUs[2]) && decide (c.deadlineUs[2] < c.deadlineUs[3]) &&
    decide (c.deadlineUs[3] < c.deadlineUs[4]) && decide (c.deadlineUs[4] < c.deadlineUs[5])

/-- `-2^(CNT_WIDTH-1) <= OFFSET_TICKS` and `T_5 + LAT_MAX < 2^(CNT_WIDTH-1)` (R110). -/
def widthAdmitted (c : Config) : Bool :=
  decide (0 < c.cntWidth) && decide (-(2 ^ (c.cntWidth - 1) : Int) ≤ c.offsetTicks) &&
    decide (threshold c 5 + c.latMax < 2 ^ (c.cntWidth - 1))

/-- The configurations a model may be instantiated with; any other is refused (R5, R78, R110; U11, U13). -/
def admitted (c : Config) : Bool :=
  clockAdmitted c && deadlinesAdmitted c && widthAdmitted c

/-- Ticks from ARM to the end of SETTLE: `T_5 - OFFSET_TICKS` (R212). -/
def frameTicks (c : Config) : Int :=
  (threshold c 5 : Int) - c.offsetTicks

end Sys2Proof.Machine
end

