-- ==== Sys2Proof/Machine/Ops.lean ====
section
/-! DEFINITION. The named operations on the registers: the pseudocode primitives of 00_scope.md R13, the write-line level
(20_memory.md R52), the guard (R90, R91), the timer (R100 to R104, R107, R109), the reset event (R200), and `checked`,
the one place where a step ends in a fault or a refusal. The block has no memory (R50) and no trap entry or return
(R184, R185), so there is no operation for either. -/

namespace Sys2Proof.Machine

/-- `SenseWrite(v)`: `SENSE_OUT <- v` (R13, R23). -/
def State.senseWrite (s : State) (v : Bool) : State := { s with senseOut := v }

/-- `WrSetDir(d)`: `WR_DIR <- d` (R13, R24). -/
def State.wrSetDir (s : State) (d : Bool) : State := { s with wrDir := d }

/-- `WrWrite(v)`: `WR_LATCH <- v` (R13, R25). -/
def State.wrWrite (s : State) (v : Bool) : State := { s with wrLatch := v }

/-- `IrqDisable()`: `GIE <- 0` (R90). -/
def State.irqDisable (s : State) : State := { s with gie := false }

/-- `IrqEnable()`: `GIE <- 1`, whatever it was (R91, R92). -/
def State.irqEnable (s : State) : State := { s with gie := true }

/-- `TmrReset(o)`: `CNT <- o`; the timer's run bit is unchanged (R101). -/
def State.tmrReset (s : State) (o : Int) : State :=
  { s with cnt := signedValue s.cfg.cntWidth o }

/-- `TmrStart()`: `TMR_RUN <- 1`; the count is unchanged (R102). -/
def State.tmrStart (s : State) : State := { s with tmrRun := true }

/-- `TmrStop()`: `TMR_RUN <- 0; CNT <- any` (R103, D21): the count is a free value of the counter's width. -/
def State.tmrStop (s : State) : State :=
  { s with
    tmrRun := false
    cnt := signedValue s.cfg.cntWidth (Config.freeCnt s.draws)
    draws := s.draws + 1 }

/-- `OUTCOME <- o` (R33). -/
def State.setOutcome (s : State) (o : TxOutcome) : State := { s with outcome := o }

/-- `STATE <- q` (R12). -/
def State.goto (s : State) (q : SeqState) : State := { s with seqState := q }

/-- The latches of the acceptance step: `MODE` and `DATA` (R71, R121). -/
def State.latch (s : State) (m : Mode) (d : Byte) : State := { s with mode := m, data := d }

/-- `Elapsed()`: the counter read as a signed integer, `sext(CNT[CNT_WIDTH-1:0])` (R104). -/
def State.elapsed (s : State) : Int := signedValue s.cfg.cntWidth s.cnt

/-- `Reached(k)`: `Elapsed() >= T_k` (R107). -/
def State.reached (s : State) (k : Fin 6) : Bool :=
  decide ((threshold s.cfg k : Int) ≤ s.elapsed)

/-- `AbortRead()`: the motor pin is at the level that means abort (R34, R56, D15). -/
def State.abort (s : State) : Bool := s.motor == s.cfg.motorActiveLevel

/-- The level of the write line (R52). -/
inductive LineLevel where
  | level (v : Bool)
  /-- `any`: an input, without pull-up, released. -/
  | floating
  /-- The block drives the line and the host pulls it low (R53). -/
  | contention
  deriving DecidableEq, Repr

/-- `WR_LEVEL`, the table of R52. -/
def State.wrLevel (s : State) : LineLevel :=
  match s.wrDir, s.wrLatch, s.hostPull with
  | false, true, false => .level true
  | false, _, true => .level false
  | false, false, false => .floating
  | true, v, false => .level v
  | true, _, true => .contention

/-- `WrRead()`: the level, and the state with the draw counted where the line floats (R54). In contention the step
faults whatever is read (`checked`), so that row draws too. -/
def State.wrRead (s : State) : Bool × State :=
  match s.wrLevel with
  | .level v => (v, s)
  | .floating | .contention => (Config.freeLevel s.draws, { s with draws := s.draws + 1 })

/-- The deadline that gates the action of a state (R78, R107). -/
def deadlineOf : SeqState → Option (Fin 6)
  | .slot0 => some 0
  | .slot1 => some 1
  | .slot2 => some 2
  | .slot3 => some 3
  | .release => some 4
  | .settle => some 5
  | .idle | .waitHs | .arm | .waitRearm | .unused _ => none

/-- `TIMER` may step: the timer runs, and no due deadline action holds it: with `Reached(k)` it may step "only if
`CNT < T_k + LAT_MAX`" (R100, R109). -/
def State.tickAllowed (s : State) : Bool :=
  s.tmrRun &&
    match deadlineOf s.seqState with
    | some k => !s.reached k || decide (s.elapsed < (threshold s.cfg k : Int) + s.cfg.latMax)
    | none => true

/-- The `TIMER` step, `CNT <- CNT + 1` in `CNT_WIDTH` bits (R100, R110); no change where it is not allowed. -/
def State.timerTick (s : State) : State :=
  if s.tickAllowed then { s with cnt := signedValue s.cfg.cntWidth (s.cnt + 1) } else s

/-- The reset event: every register takes its value of the reset table (R37, R200); `CNT`, `DATA` and `MODE` are
unspecified there and take free values. The inputs and the configuration are not the block's to reset. -/
def State.resetEvent (s : State) : State :=
  { s with
    seqState := .idle
    wrDir := false
    wrLatch := true
    tmrRun := false
    outcome := .none
    senseOut := s.cfg.senseReset
    gie := s.cfg.gieReset
    cnt := signedValue s.cfg.cntWidth (Config.freeCnt s.draws)
    data := Config.freeData s.draws
    mode := modeOfBit (Config.freeMode s.draws)
    draws := s.draws + 1 }

/-- Contention: `WR_DIR = 1` and `HOST_PULL = 1` hold together (R53). -/
def State.contention (s : State) : Bool := s.wrDir && s.hostPull

/-- The fault a state records, `BUS_CONTENTION` before `BAD_STATE` (R180, R183). -/
def State.faultOf (s : State) : Option Fault :=
  if s.contention then some .busContention
  else if s.badCode then some .badState
  else none

/-- One atomic step from `before` to `after`: refused in a configuration that is not admitted (R110); a fault if
either state records one (R53, R133: "at any step", and a fault is never cleared); else the next state is `after`. -/
def checked (before after : State) : Host.Outcome State Fault Refusal :=
  if admitted before.cfg then
    match before.faultOf with
    | some f => .fault f
    | none =>
      match after.faultOf with
      | some f => .fault f
      | none => .next after
  else .refused .badConfig

/-- The state `s` in which `m` is the next move of the schedule. -/
def State.withMove (s : State) (m : Move) : State := { s with schedule := m :: s.schedule }

end Sys2Proof.Machine
end

