-- ==== Sys2Proof/Machine/Sequencer.lean ====
section
/-! DEFINITION. The body the two commands share: one definition per state action of 42_transmitter.md, R122 to R132, and
`seqBody`, the state action of the current state behind its guard (R120). -/

namespace Sys2Proof.Machine

/-- A deadline state's action, or no change while `Reached(k)` is false: "it is held, busy-waiting" (R107). -/
def whenReached (k : Fin 6) (action : State → State) (s : State) : State :=
  if s.reached k then action s else s

/-- Abort exit of `WAIT_HS` (R123). -/
def abortExit (s : State) : State :=
  (s.tmrStop.irqEnable.setOutcome .aborted).goto .idle

/-- Handshake poll: abort wins, then a high write line arms, else the poll repeats (R122, D10). -/
def handshakePoll (s : State) : State :=
  let (h, polled) := s.wrRead
  if s.abort then abortExit polled
  else if h then polled.goto .arm
  else polled

/-- Arm: the mode's arm polarity on sense, then the timer starts (R124). -/
def armAction (s : State) : State :=
  ((s.senseWrite (armPol s.mode)).tmrStart).goto .slot0

/-- Bit-slot 0: the write line becomes an output; drive `PAIR(0)` (R125). -/
def slot0Action (s : State) : State :=
  (((s.wrSetDir true).senseWrite (pairSense s.data 0)).wrWrite (pairWrite s.data 0)).goto .slot1

/-- Bit-slot 1: drive `PAIR(1)` (R126). -/
def slot1Action (s : State) : State :=
  ((s.senseWrite (pairSense s.data 1)).wrWrite (pairWrite s.data 1)).goto .slot2

/-- Bit-slot 2: drive `PAIR(2)` (R127). -/
def slot2Action (s : State) : State :=
  ((s.senseWrite (pairSense s.data 2)).wrWrite (pairWrite s.data 2)).goto .slot3

/-- Bit-slot 3: drive `PAIR(3)` (R128). -/
def slot3Action (s : State) : State :=
  ((s.senseWrite (pairSense s.data 3)).wrWrite (pairWrite s.data 3)).goto .release

/-- Release: the write line becomes an input with its pull-up on (R129). -/
def releaseAction (s : State) : State :=
  ((s.wrSetDir false).wrWrite true).goto .settle

/-- Settle: "pure wait — no output change" (R130). -/
def settleAction (s : State) : State :=
  s.goto .waitRearm

/-- Finish: terminal polarity, timer stop, interrupt enable (R132). -/
def finishAction (s : State) : State :=
  (((s.senseWrite (termPol s.mode)).tmrStop.irqEnable).setOutcome .sent).goto .idle

/-- Re-arm poll: a low write line or abort finishes, else the poll repeats (R131, D11). -/
def rearmPoll (s : State) : State :=
  let (h, polled) := s.wrRead
  if !h || s.abort then finishAction polled else polled

/-- The state action of the current state, no change while its guard is false (R120). In `IDLE` the action is the
acceptance of a command, which is `exec`'s (R121). In an unused code `SEQ` has no step (R133). -/
def seqBody (s : State) : State :=
  match s.seqState with
  | .idle => s
  | .waitHs => handshakePoll s
  | .arm => armAction s
  | .slot0 => whenReached 0 slot0Action s
  | .slot1 => whenReached 1 slot1Action s
  | .slot2 => whenReached 2 slot2Action s
  | .slot3 => whenReached 3 slot3Action s
  | .release => whenReached 4 releaseAction s
  | .settle => whenReached 5 settleAction s
  | .waitRearm => rearmPoll s
  | .unused _ => s

end Sys2Proof.Machine
end

