-- ==== Sys2Proof/Machine/Commands.lean ====
section
/-! DEFINITION. The meanings of the two commands (43_commands.md R160, R161): each is the acceptance step of R121 with its
mode; the body they share follows as steps of `SEQ` (Sys2Proof/Machine/Sequencer.lean). -/

namespace Sys2Proof.Machine

/-- The acceptance step (R121): latch mode and byte, disable interrupts, load the offset, clear the outcome, wait for
the handshake. No line is written. -/
def accepted (m : Mode) (d : Byte) (s : State) : State :=
  ((((s.latch m d).irqDisable).tmrReset s.cfg.offsetTicks).setOutcome .none).goto .waitHs

/-- A command on the port: taken while `STATE = IDLE`; "While `BUSY = 1`, a command on the port is not accepted and
not queued", and it has no effect (R162). -/
def present (m : Mode) (d : Byte) (s : State) : Host.Outcome State Fault Refusal :=
  checked s (if s.cmdReady then accepted m d s else s)

/-- TXL: accept with `MODE = 0`, `DATA = imm8` (R160). -/
def execTxl (imm8 : Byte) (s : State) : Host.Outcome State Fault Refusal :=
  present .loader imm8 s

/-- TXC: accept with `MODE = 1`, `DATA = imm8` (R161). -/
def execTxc (imm8 : Byte) (s : State) : Host.Outcome State Fault Refusal :=
  present .commandMode imm8 s

end Sys2Proof.Machine
end

