-- ==== Sys2Proof/Machine/Dispatch.lean ====
section
/-! DEFINITION. One arm per command: the meaning of each. -/

namespace Sys2Proof.Machine

def exec (i : Instr) (s : State) : Host.Outcome State Fault Refusal :=
  match i with
  | .txl imm8 => Sys2Proof.Machine.execTxl imm8 s
  | .txc imm8 => Sys2Proof.Machine.execTxc imm8 s

end Sys2Proof.Machine
end

