-- ==== Sys2Proof/Machine/Agents.lean ====
section
/-! DEFINITION. The steps of the agents (00_scope.md R8, R9): what each move does, how `SEQ` takes a command from the port,
and which move comes next. A move whose step is not enabled changes nothing (log entry 8). -/

namespace Sys2Proof.Machine

/-- `CMD_VALID`: the CALLER presents a command (R34, R51). -/
def State.cmdValid (s : State) : Bool := s.presenting && !s.program.isEmpty

/-- The command word on the port, and the state with the word taken: "that step consumes it" (R162). -/
def State.fetch (s : State) : Option (CmdWord × State) :=
  match s.presenting, s.program with
  | true, word :: rest => some (word, { s with program := rest, presenting := false })
  | _, _ => none

/-- `CALLER` presents the head of its program; it is held while a word already waits on the port (R162). -/
def State.callerStep (s : State) : State :=
  if s.program.isEmpty then s else { s with presenting := true }

/-- The system writes `GIE`, only while `BUSY = 0` (R64, D29). -/
def State.systemStep (s : State) (enable : Bool) : State :=
  if s.busy then s else { s with gie := enable }

/-- `SEQ`'s step: in `IDLE` it executes the command on the port, if there is one (R121); else the state action. -/
def seqStep (s : State) : Host.Outcome State Fault Refusal :=
  match s.seqState, s.fetch with
  | .idle, some (word, taken) => exec (decode word) taken
  | _, _ => checked s (seqBody s)

/-- One atomic step of one agent (R8, R9). -/
def perform (m : Move) (s : State) : Host.Outcome State Fault Refusal :=
  match m with
  | .seq => seqStep s
  | .timer => checked s s.timerTick
  | .host pull => checked s { s with hostPull := pull }
  | .motor level => checked s { s with motor := level }
  | .caller => checked s s.callerStep
  | .system enable => checked s (s.systemStep enable)
  | .reset => checked s s.resetEvent

/-- The next move and the state with it taken: the head of the schedule, or, when the schedule is used up, a free
value: "Any agent that has an enabled step may be scheduled" (R9, U18). -/
def State.nextMove (s : State) : Move × State :=
  match s.schedule with
  | m :: rest => (m, { s with schedule := rest })
  | [] => (Config.freeMove s.draws, { s with draws := s.draws + 1 })

/-- The state in which the word `w` stands on the port of an idle block and `SEQ` moves next. -/
def State.loadPort (s : State) (w : CmdWord) : State :=
  { s with seqState := .idle, program := w :: s.program, presenting := true }.withMove .seq

end Sys2Proof.Machine
end

