-- ==== Sys2Proof/Machine/Step.lean ====
section
/-! DEFINITION. One step of the machine: the next move of the schedule, performed. -/

namespace Sys2Proof.Machine

/-- One atomic step of the agent whose move is next (R9). -/
def step (s : State) : Host.Outcome State Fault Refusal :=
  perform s.nextMove.1 s.nextMove.2

/-- `s` with the command word of the `nbits` low bits of `w` on the command port of the idle block and `SEQ`'s move
next (log entry 15). -/
def State.withFetchWord (s : State) (nbits w : Nat) : State :=
  s.loadPort (BitVec.ofNat 9 (w % 2 ^ nbits))

end Sys2Proof.Machine
end

