-- ==== Sys2Proof/Machine/Ports.lean ====
section
/-! DEFINITION. What the outside world observes: the output ports of 20_memory.md R51. The block's other registers are
hidden (R35, R191). -/

namespace Sys2Proof.Machine

/-- The output ports, and the level of the write line (R51). -/
structure Ports where
  cmdReady : Bool
  busy : Bool
  outcome : BitVec 2
  sense : Bool
  write : LineLevel
  gie : Bool
  deriving DecidableEq, Repr

/-- The ports of a state: sense is driven to `SENSE_OUT` at all times (R23, R51, R55). -/
def State.ports (s : State) : Ports where
  cmdReady := s.cmdReady
  busy := s.busy
  outcome := outcomeCode s.outcome
  sense := s.senseOut
  write := s.wrLevel
  gie := s.gie

end Sys2Proof.Machine
end

