-- ==== Sys2Proof/Safety.lean ====
section
/-! DEFINITION. The terms claims use: when the model may step, the invariants of the block (R27, R38, R93, R109, R135,
R140), the state graph (R120), and the moves of one undisturbed frame (R140). -/

namespace Sys2Proof.Machine

/-- The model may step: its configuration is admitted (R110) and no fault is recorded (R180, R185). -/
def State.running (s : State) : Bool :=
  admitted s.cfg && s.faultOf.isNone

/-- R38: whenever `STATE` is `IDLE`, `WAIT_HS`, `ARM`, `SETTLE` or `WAIT_REARM`, `WR_DIR = 0` and `WR_LATCH = 1`. -/
def State.lineParked (s : State) : Bool :=
  match s.seqState with
  | .idle | .waitHs | .arm | .settle | .waitRearm => !s.wrDir && s.wrLatch
  | .slot0 | .slot1 | .slot2 | .slot3 | .release | .unused _ => true

/-- The states in which the timer runs: SLOT0 to WAIT_REARM (R27). -/
def timed : SeqState → Bool
  | .slot0 | .slot1 | .slot2 | .slot3 | .release | .settle | .waitRearm => true
  | .idle | .waitHs | .arm | .unused _ => false

/-- R27: `TMR_RUN` is 1 exactly while `STATE` is one of SLOT0 to WAIT_REARM. -/
def State.timerMatches (s : State) : Bool :=
  s.tmrRun == timed s.seqState

/-- R93: from acceptance to the return to `IDLE`, `GIE = 0`. -/
def State.guardHolds (s : State) : Bool :=
  !(s.busy && s.gie)

/-- The write line is an input with its pull-up on. -/
def State.writeReleased (s : State) : Bool := !s.wrDir && s.wrLatch

/-- Bit-slot `k` is on the lines: `PAIR(k)`, the write line driven (R75, R76). -/
def State.drivesPair (s : State) (k : Fin 4) : Bool :=
  s.wrDir && (s.senseOut == pairSense s.data k) && (s.wrLatch == pairWrite s.data k)

/-- The levels the lines hold in each state (R75, R135, R140). -/
def State.frameLevels (s : State) : Bool :=
  match s.seqState with
  | .idle => s.writeReleased && (decide (s.outcome ≠ .sent) || s.senseOut == termPol s.mode)
  | .waitHs | .arm => s.writeReleased
  | .slot0 => s.writeReleased && s.senseOut == armPol s.mode
  | .slot1 => s.drivesPair 0
  | .slot2 => s.drivesPair 1
  | .slot3 => s.drivesPair 2
  | .release => s.drivesPair 3
  | .settle | .waitRearm => s.writeReleased && s.senseOut == pairSense s.data 3
  | .unused _ => true

/-- `low ≤ CNT ≤ T_k + LAT_MAX`. -/
def State.countBetween (s : State) (low : Int) (k : Fin 6) : Bool :=
  decide (low ≤ s.cnt) && decide (s.cnt ≤ (threshold s.cfg k : Int) + s.cfg.latMax)

/-- Where the count stands in each state (R101, R107, R109). -/
def State.countInSlot (s : State) : Bool :=
  match s.seqState with
  | .waitHs | .arm => s.cnt == s.cfg.offsetTicks
  | .slot0 => s.countBetween s.cfg.offsetTicks 0
  | .slot1 => s.countBetween (threshold s.cfg 0) 1
  | .slot2 => s.countBetween (threshold s.cfg 1) 2
  | .slot3 => s.countBetween (threshold s.cfg 2) 3
  | .release => s.countBetween (threshold s.cfg 3) 4
  | .settle => s.countBetween (threshold s.cfg 4) 5
  | .idle | .waitRearm | .unused _ => true

/-- The count fits its width (R110) and stands where it should, in an admitted configuration whose offset is not
positive (R106). -/
def State.countKept (s : State) : Bool :=
  admitted s.cfg && decide (s.cfg.offsetTicks ≤ 0) && (s.elapsed == s.cnt) && s.countInSlot

/-- The arrows of the state graph, each with its guard (R120); where the line floats, a poll may go either way. -/
def State.mayGo (s : State) (q : SeqState) : Bool :=
  match s.seqState, q with
  | .idle, .waitHs => s.cmdValid
  | .waitHs, .idle => s.abort
  | .waitHs, .arm => !s.abort && decide (s.wrLevel ≠ .level false)
  | .arm, .slot0 => true
  | .slot0, .slot1 => s.reached 0
  | .slot1, .slot2 => s.reached 1
  | .slot2, .slot3 => s.reached 2
  | .slot3, .release => s.reached 3
  | .release, .settle => s.reached 4
  | .settle, .waitRearm => s.reached 5
  | .waitRearm, .idle => s.abort || decide (s.wrLevel ≠ .level true)
  | _, _ => false

/-- Two states that differ at most in `MODE` and the sense level, and not in the sense level from the SLOT0 action to the
finish step: the other line levels, the count and every other field agree. In IDLE, WAIT_HS, ARM and SLOT0 the sense
levels may differ. -/
def modeTwins (a b : State) : Prop :=
  b = { a with mode := b.mode, senseOut := b.senseOut } ∧
    (a.seqState ∈ [SeqState.slot1, .slot2, .slot3, .release, .settle, .waitRearm] → b.senseOut = a.senseOut)

/-- Two outcomes of the same kind, with twin next states. -/
def twinOutcomes : Host.Outcome State Fault Refusal → Host.Outcome State Fault Refusal → Prop
  | .next a, .next b => modeTwins a b
  | .fault f, .fault g => f = g
  | .refused r, .refused q => r = q
  | _, _ => False

/-- What waits on the command port is replaced (R62). -/
def State.withPort (s : State) (p : List CmdWord) (v : Bool) : State :=
  { s with program := p, presenting := v }

/-- An outcome with its next state changed by `f`. -/
def mapNext (f : State → State) : Host.Outcome State Fault Refusal → Host.Outcome State Fault Refusal
  | .next s => .next (f s)
  | .fault r => .fault r
  | .refused r => .refused r

/-- `n` steps of the machine, stopping at the first fault or refusal: the host's run of `Sys2Proof.core`. -/
def run (n : Nat) (s : State) : Host.Outcome State Fault Refusal :=
  Sys2Proof.core.run n s

/-- How many of the first `n` steps from `s` change the count, up to a fault or a refusal. -/
def ticksIn : Nat → State → Nat
  | 0, _ => 0
  | n + 1, s =>
    match step s with
    | .next t => (if t.cnt = s.cnt then 0 else 1) + ticksIn n t
    | .fault _ => 0
    | .refused _ => 0

/-- The `n`-th step from `s` is the first to reach `WAIT_REARM`, and no step up to it is a reset event. -/
def settlesIn : Nat → State → Bool
  | 0, s => decide (s.seqState = .waitRearm)
  | n + 1, s =>
    decide (s.seqState ≠ .waitRearm) && decide (s.nextMove.1 ≠ .reset) &&
      match step s with
      | .next t => settlesIn n t
      | .fault _ => false
      | .refused _ => false

/-- The moves of one undisturbed frame (R140), a row of the trace each: accept, handshake and ARM; then for each
deadline the ticks up to `T_k` and the action; then the host pulls low and the finish step. -/
def frameSegment (c : Config) : Nat → List Move
  | 0 => [.seq, .seq, .seq]
  | 1 => List.replicate ((threshold c 0 : Int) - c.offsetTicks).toNat .timer ++ [.seq]
  | 2 => List.replicate (threshold c 1 - threshold c 0) .timer ++ [.seq]
  | 3 => List.replicate (threshold c 2 - threshold c 1) .timer ++ [.seq]
  | 4 => List.replicate (threshold c 3 - threshold c 2) .timer ++ [.seq]
  | 5 => List.replicate (threshold c 4 - threshold c 3) .timer ++ [.seq]
  | 6 => List.replicate (threshold c 5 - threshold c 4) .timer ++ [.seq]
  | 7 => [.host true, .seq]
  | _ => []

/-- The segments 0 to `n - 1` in order. -/
def frameMoves (c : Config) : Nat → List Move
  | 0 => []
  | n + 1 => frameMoves c n ++ frameSegment c n

/-- The trace of R140: `(CNT at the step, SENSE_OUT, WR_DIR, WR_LATCH)` after ARM, SLOT0 to SLOT3, RELEASE and SETTLE. -/
def frameRow (c : Config) (m : Mode) (d : Byte) : Fin 7 → Int × Bool × Bool × Bool
  | 0 => (c.offsetTicks, armPol m, false, true)
  | 1 => (threshold c 0, d.getLsbD 5, true, d.getLsbD 4)
  | 2 => (threshold c 1, d.getLsbD 7, true, d.getLsbD 6)
  | 3 => (threshold c 2, d.getLsbD 1, true, d.getLsbD 0)
  | 4 => (threshold c 3, d.getLsbD 3, true, d.getLsbD 2)
  | 5 => (threshold c 4, d.getLsbD 3, false, true)
  | 6 => (threshold c 5, d.getLsbD 3, false, true)

/-- An idle block in its launch position: the model may step, the write line is parked, the timer is stopped, the host
has released the line, no abort, and the offset is not positive (R38, R27, R106, R205; log entry 13). -/
def State.readyForFrame (s : State) : Bool :=
  s.running && decide (s.seqState = .idle) && s.lineParked && s.timerMatches && !s.hostPull && !s.abort &&
    decide (s.cfg.offsetTicks ≤ 0)

end Sys2Proof.Machine
end

