-- ==== Sys2Proof/Certificates/Slice0/Obligations.lean ====
section
/-! DEFINITION. The statements for the provers. A statement about one agent's step says it of `step` in a state whose next
scheduled move is that agent's (`withMove`); `StepPerformsTheNextMove` says that every step is of that kind, or performs
a freely drawn move. Every next state is written out as a record update, which is also its frame. -/

open Sys2Proof Sys2Proof.Machine

/-! ### Encoding -/

/-- 95_test_vectors.md 2.1, R70, R72: seven words and the commands they stand for. -/
def Obligations.SampleWordsDecode : Prop :=
  decodeBits 0b000000000 = .ok (.txl 0x00) ∧ decodeBits 0b011111111 = .ok (.txl 0xFF) ∧
    decodeBits 0b010110100 = .ok (.txl 0xB4) ∧ decodeBits 0b100000000 = .ok (.txc 0x00) ∧
    decodeBits 0b101011010 = .ok (.txc 0x5A) ∧ decodeBits 0b111111111 = .ok (.txc 0xFF) ∧
    decodeBits 0b100001100 = .ok (.txc 0x0C)

/-- R70, R71, R72: the word of a command has the mode in bit 8 and the byte in bits [7:0], and decoding it gives the
command back, for every command. -/
def Obligations.EncodeThenDecodeIsIdentity : Prop :=
  ∀ i : Instr, decode (encode i) = i ∧ decodeBits (encode i).toNat = .ok i ∧
    decodeTableWord 9 (encode i).toNat = some i ∧
    (encode i).toNat = (match i with | .txl d => d.toNat | .txc d => 256 + d.toNat)

/-- R73, R74: each of the 512 words is a well-formed command whose encoding is that word, the first 256 of them TXL words
and the others TXC words. That a number with a bit above bit 8 is rejected by name is the model's reading of R74's length
(DEDUCED, log entry 16). -/
def Obligations.EveryNineBitWordIsACommand : Prop :=
  ∀ n : Nat,
    (n < 512 → ∃ i : Instr, decodeBits n = .ok i ∧ i.wellFormed = true ∧ (encode i).toNat = n) ∧
      (n < 256 → ∃ imm8, decodeBits n = .ok (.txl imm8)) ∧
      (256 ≤ n → n < 512 → ∃ imm8, decodeBits n = .ok (.txc imm8)) ∧
      (512 ≤ n → decodeBits n = .error (.notNineBits n))

/-- R79: a receiver that samples the four pairs of R76 recovers the byte. -/
def Obligations.ReceiverRecoversTheByte : Prop :=
  ∀ d : Byte,
    receive (pairSense d 0) (pairWrite d 0) (pairSense d 1) (pairWrite d 1)
      (pairSense d 2) (pairWrite d 2) (pairSense d 3) (pairWrite d 3) = d

/-! ### Timer arithmetic -/

/-- R105: `T_k` is the smallest integer `n` with `n * PRESCALE * 10^6 >= DEADLINE_US[k] * CLK_HZ`; the test against it is
exactly the test "elapsed time in µs >= DEADLINE_US[k]" for integer tick counts; and the rule's table of values. -/
def Obligations.ThresholdIsTheLeastTickCount : Prop :=
  (∀ (c : Config) (k : Fin 6), clockAdmitted c = true →
    ∀ n : Int,
      ((threshold c k : Int) ≤ n ↔ (c.deadlineUs[k] : Int) * c.clkHz ≤ n * c.prescale * 1000000) ∧
      ((threshold c k : Int) ≤ n ↔ (c.deadlineUs[k] : Rat) ≤ elapsedMicros c n)) ∧
    (List.finRange 6).map (threshold { Config.reference with clkHz := 8000000 }) = [4, 13, 22, 31, 41, 53] ∧
    (List.finRange 6).map (threshold { Config.reference with clkHz := 16000000 }) = [8, 26, 44, 62, 82, 106] ∧
    (List.finRange 6).map (threshold { Config.reference with clkHz := 20000000 }) = [10, 33, 55, 78, 103, 133]

/-- R104, R105, R107: `Reached(k)`, read off the counter of a state, holds exactly when the elapsed time in µs has come
to `DEADLINE_US[k]`. -/
def Obligations.ReachedIsElapsedMicroseconds : Prop :=
  ∀ (s : State) (k : Fin 6), clockAdmitted s.cfg = true →
    (s.reached k = true ↔ (s.cfg.deadlineUs[k] : Rat) ≤ elapsedMicros s.cfg s.elapsed)

/-- R106: the default offset is half a microsecond of ticks, rounded toward zero, negated. -/
def Obligations.OffsetIsHalfAMicrosecondRoundedToZero : Prop :=
  ∀ c : Config, clockAdmitted c = true →
    ∃ n : Nat, defaultOffset c = -(n : Int) ∧ n * (2 * c.prescale * 1000000) ≤ c.clkHz ∧
      c.clkHz < (n + 1) * (2 * c.prescale * 1000000)

/-- R104, R209: the counter is read signed: the reading agrees with the stored bits and lies in the signed range. -/
def Obligations.ElapsedIsTheSignedReading : Prop :=
  ∀ s : State, 0 < s.cfg.cntWidth →
    -(2 ^ (s.cfg.cntWidth - 1) : Int) ≤ s.elapsed ∧ s.elapsed < 2 ^ (s.cfg.cntWidth - 1) ∧
      (2 ^ s.cfg.cntWidth : Int) ∣ s.elapsed - s.cnt

/-! ### Reset -/

/-- R37, R200: what the spec gives for the state after reset; its configuration is the model's choice (log entry 2). -/
def Obligations.ResetStateIsIdleAndReleased : Prop :=
  State.reset.seqState = .idle ∧ State.reset.wrDir = false ∧ State.reset.wrLatch = true ∧
    State.reset.tmrRun = false ∧ State.reset.outcome = .none ∧
    State.reset.senseOut = State.reset.cfg.senseReset ∧ State.reset.gie = State.reset.cfg.gieReset ∧
    admitted State.reset.cfg = true ∧ State.reset.cfg.offsetTicks = defaultOffset State.reset.cfg

/-- R200: a reset event sets every register to its value of the reset table, in any state that may step, also during a
transmission; `CNT`, `DATA` and `MODE` take free values. -/
def Obligations.ResetEventSetsTheResetTable : Prop :=
  ∀ s : State, s.running = true →
    step (s.withMove .reset) = .next { s with
      seqState := .idle, wrDir := false, wrLatch := true, tmrRun := false, outcome := .none
      senseOut := s.cfg.senseReset, gie := s.cfg.gieReset
      cnt := signedValue s.cfg.cntWidth (Config.freeCnt s.draws)
      data := Config.freeData s.draws, mode := modeOfBit (Config.freeMode s.draws)
      draws := s.draws + 1 }

/-- R27, R38, R93, R135: the invariants hold in the state after reset, with the configuration of log entry 2. -/
def Obligations.InvariantsHoldAfterReset : Prop :=
  State.reset.running = true ∧ State.reset.lineParked = true ∧ State.reset.timerMatches = true ∧
    State.reset.guardHolds = true ∧ State.reset.frameLevels = true ∧ State.reset.countKept = true

/-! ### The two commands -/

/-- R160, R121: TXL on an idle block latches `MODE = 0` and the byte, disables interrupts, loads the offset, clears the
outcome and waits for the handshake; nothing else changes. The premise is that the offset fits the counter (log
entry 13). -/
def Obligations.TxlIsAccepted : Prop :=
  ∀ (imm8 : Byte) (s : State), s.running = true → s.seqState = .idle →
    s.cfg.offsetTicks < 2 ^ (s.cfg.cntWidth - 1) →
    exec (.txl imm8) s = .next { s with
      mode := .loader, data := imm8, gie := false, cnt := s.cfg.offsetTicks
      outcome := .none, seqState := .waitHs }

/-- R161, R121: TXC on an idle block does the same with `MODE = 1`. -/
def Obligations.TxcIsAccepted : Prop :=
  ∀ (imm8 : Byte) (s : State), s.running = true → s.seqState = .idle →
    s.cfg.offsetTicks < 2 ^ (s.cfg.cntWidth - 1) →
    exec (.txc imm8) s = .next { s with
      mode := .commandMode, data := imm8, gie := false, cnt := s.cfg.offsetTicks
      outcome := .none, seqState := .waitHs }

/-- R162: a command presented while `BUSY = 1` is not accepted and has no effect. -/
def Obligations.BusyBlockTakesNoCommand : Prop :=
  ∀ (i : Instr) (s : State), s.running = true → s.seqState ≠ .idle → exec i s = .next s

/-- R121, R162: TXL and TXC write no line, no timer run bit and no input, whatever the state they are executed in, and
leave the block busy with interrupts disabled if it was idle. -/
def Obligations.TxlAndTxcWriteNoLine : Prop :=
  ∀ (i : Instr) (s t : State), exec i s = .next t →
    t = { s with mode := t.mode, data := t.data, gie := t.gie, cnt := t.cnt, outcome := t.outcome,
                 seqState := t.seqState } ∧
      (s.seqState ≠ .idle → t = s) ∧ (s.seqState = .idle → t.seqState = .waitHs ∧ t.gie = false)

/-- R53, R110, R133, R183: TXL and TXC stop only so: refused in a configuration that is not admitted, else a fault of
the state, contention first. -/
def Obligations.TxlAndTxcStopOnlyOnARecordedFault : Prop :=
  ∀ (i : Instr) (s : State),
    (admitted s.cfg = false → exec i s = .refused .badConfig) ∧
      (admitted s.cfg = true → s.wrDir = true → s.hostPull = true → exec i s = .fault .busContention) ∧
      (admitted s.cfg = true → ¬(s.wrDir = true ∧ s.hostPull = true) →
        (∀ offset, s.seqState = .unused offset → exec i s = .fault .badState) ∧
          ((∀ offset, s.seqState ≠ .unused offset) → ∃ t, exec i s = .next t))

/-! ### The step -/

/-- R9: a step performs the head of the schedule, and a freely drawn move once the schedule is used up. The schedule is
the model's choice (log entry 8). -/
def Obligations.StepPerformsTheNextMove : Prop :=
  ∀ s : State,
    (∀ m, step (s.withMove m) = perform m s) ∧
      (s.schedule = [] → step s = perform (Config.freeMove s.draws) { s with draws := s.draws + 1 })

/-- R121, R162: when `SEQ` steps in `IDLE` and a command is presented, the step is `exec` of the decoded word at the
state with the word taken from the port. -/
def Obligations.StepRunsTheDecodedCommand : Prop :=
  ∀ (s : State) (word : CmdWord) (rest : List CmdWord), s.seqState = .idle → s.presenting = true →
    s.program = word :: rest →
    step (s.withMove .seq) = exec (decode word) { s with program := rest, presenting := false }

/-- R121, R71: the acceptance step latches `MODE` from bit 8 and `DATA` from bits [7:0] of the word on the port, takes the
word from the port (R162), disables interrupts, loads the offset, clears the outcome and waits for the handshake;
nothing else changes. That `CMD_VALID` falls in this step is log entry 14 (DEDUCED); the premise that the offset fits
the counter is log entry 13. -/
def Obligations.AcceptanceLatchesTheWord : Prop :=
  ∀ (s : State) (word : CmdWord) (rest : List CmdWord), s.running = true → s.seqState = .idle →
    s.presenting = true → s.program = word :: rest → s.cfg.offsetTicks < 2 ^ (s.cfg.cntWidth - 1) →
    step (s.withMove .seq) = .next { s with
      mode := if word.getLsbD 8 then .commandMode else .loader
      data := word.extractLsb' 0 8, gie := false, cnt := s.cfg.offsetTicks
      outcome := .none, seqState := .waitHs, program := rest, presenting := false }

/-- R201: with no command presented, the idle block takes no step. -/
def Obligations.IdleBlockWaitsForACommand : Prop :=
  ∀ s : State, s.running = true → s.seqState = .idle → s.cmdValid = false →
    step (s.withMove .seq) = .next s

/-- R122, R123: the handshake poll, the line at a level: abort wins and takes the abort exit, else a high line arms, else
nothing changes. -/
def Obligations.HandshakePoll : Prop :=
  ∀ (s : State) (h : Bool), s.running = true → s.seqState = .waitHs → s.wrLevel = .level h →
    (s.abort = true → step (s.withMove .seq) = .next { s with
      tmrRun := false, cnt := signedValue s.cfg.cntWidth (Config.freeCnt s.draws), draws := s.draws + 1
      gie := true, outcome := .aborted, seqState := .idle }) ∧
    (s.abort = false → h = true → step (s.withMove .seq) = .next { s with seqState := .arm }) ∧
    (s.abort = false → h = false → step (s.withMove .seq) = .next s)

/-- R52, R54: a read of the floating line draws its level. The handshake poll arms or repeats and the re-arm poll finishes
or repeats as the free value says (log entry 6); abort ends either wait whatever is read. No run reaches such a state
(R54). -/
def Obligations.FloatingPollsDrawTheirLevel : Prop :=
  ∀ s : State, s.running = true → s.wrLevel = .floating →
    (s.seqState = .waitHs → s.abort = false → step (s.withMove .seq) = .next { s with
      draws := s.draws + 1
      seqState := if Config.freeLevel s.draws then .arm else .waitHs }) ∧
    (s.seqState = .waitHs → s.abort = true → step (s.withMove .seq) = .next { s with
      tmrRun := false, cnt := signedValue s.cfg.cntWidth (Config.freeCnt (s.draws + 1)), draws := s.draws + 2
      gie := true, outcome := .aborted, seqState := .idle }) ∧
    (s.seqState = .waitRearm → Config.freeLevel s.draws = true → s.abort = false →
      step (s.withMove .seq) = .next { s with draws := s.draws + 1 }) ∧
    (s.seqState = .waitRearm → Config.freeLevel s.draws = false ∨ s.abort = true →
      step (s.withMove .seq) = .next { s with
        senseOut := decide (s.mode = .loader)
        tmrRun := false, cnt := signedValue s.cfg.cntWidth (Config.freeCnt (s.draws + 1)), draws := s.draws + 2
        gie := true, outcome := .sent, seqState := .idle })

/-- R52: the level table of the write line. -/
def Obligations.WriteLineLevelTable : Prop :=
  ∀ s : State,
    (s.wrDir = false → s.wrLatch = true → s.hostPull = false → s.wrLevel = .level true) ∧
    (s.wrDir = false → s.wrLatch = true → s.hostPull = true → s.wrLevel = .level false) ∧
    (s.wrDir = false → s.wrLatch = false → s.hostPull = true → s.wrLevel = .level false) ∧
    (s.wrDir = false → s.wrLatch = false → s.hostPull = false → s.wrLevel = .floating) ∧
    (s.wrDir = true → s.hostPull = false → s.wrLevel = .level s.wrLatch) ∧
    (s.wrDir = true → s.hostPull = true → s.wrLevel = .contention)

/-- R124, R77, R102: ARM drives sense to the mode's arm polarity (0 for Loader, 1 for CommandMode) and starts the
timer. -/
def Obligations.ArmAction : Prop :=
  ∀ s : State, s.running = true → s.seqState = .arm →
    step (s.withMove .seq) = .next { s with
      senseOut := decide (s.mode = .commandMode)
      tmrRun := true, seqState := .slot0 }

/-- R125, R76, R53: at deadline 0 the write line becomes an output carrying D[4], sense carries D[5]; contention if the
host pulls the line low at that step. -/
def Obligations.Slot0Action : Prop :=
  ∀ s : State, s.running = true → s.seqState = .slot0 → s.reached 0 = true →
    (s.hostPull = false → step (s.withMove .seq) = .next { s with
      wrDir := true, senseOut := s.data.getLsbD 5, wrLatch := s.data.getLsbD 4, seqState := .slot1 }) ∧
    (s.hostPull = true → step (s.withMove .seq) = .fault .busContention)

/-- R126, R76: at deadline 1 the lines carry (D[7], D[6]). -/
def Obligations.Slot1Action : Prop :=
  ∀ s : State, s.running = true → s.seqState = .slot1 → s.reached 1 = true →
    step (s.withMove .seq) = .next { s with
      senseOut := s.data.getLsbD 7, wrLatch := s.data.getLsbD 6, seqState := .slot2 }

/-- R127, R76: at deadline 2 the lines carry (D[1], D[0]). -/
def Obligations.Slot2Action : Prop :=
  ∀ s : State, s.running = true → s.seqState = .slot2 → s.reached 2 = true →
    step (s.withMove .seq) = .next { s with
      senseOut := s.data.getLsbD 1, wrLatch := s.data.getLsbD 0, seqState := .slot3 }

/-- R128, R76: at deadline 3 the lines carry (D[3], D[2]). -/
def Obligations.Slot3Action : Prop :=
  ∀ s : State, s.running = true → s.seqState = .slot3 → s.reached 3 = true →
    step (s.withMove .seq) = .next { s with
      senseOut := s.data.getLsbD 3, wrLatch := s.data.getLsbD 2, seqState := .release }

/-- R129: at deadline 4 the write line becomes an input with its pull-up on. -/
def Obligations.ReleaseAction : Prop :=
  ∀ s : State, s.running = true → s.seqState = .release → s.reached 4 = true →
    step (s.withMove .seq) = .next { s with wrDir := false, wrLatch := true, seqState := .settle }

/-- R130: at deadline 5 the state alone changes. -/
def Obligations.SettleAction : Prop :=
  ∀ s : State, s.running = true → s.seqState = .settle → s.reached 5 = true →
    step (s.withMove .seq) = .next { s with seqState := .waitRearm }

/-- R107: in each of the six deadline states, `Reached(k)` is `Elapsed() >= T_k`; "`SEQ` has no step in that state while
`Reached(k)` is false", and once it is true its step leaves the state (SLOT0's where the host has released the line). -/
def Obligations.DeadlineStateHoldsUntilReached : Prop :=
  ∀ (s : State) (q : SeqState) (k : Fin 6),
    (q, k) ∈ [(SeqState.slot0, (0 : Fin 6)), (.slot1, 1), (.slot2, 2), (.slot3, 3), (.release, 4), (.settle, 5)] →
    s.running = true → s.seqState = q →
    (s.reached k = true ↔ (threshold s.cfg k : Int) ≤ s.elapsed) ∧
      (s.elapsed < (threshold s.cfg k : Int) → step (s.withMove .seq) = .next s) ∧
      ((threshold s.cfg k : Int) ≤ s.elapsed → (q = .slot0 → s.hostPull = false) →
        ∃ t, step (s.withMove .seq) = .next t ∧ s.mayGo t.seqState = true)

/-- R131, R132, R77: the re-arm poll, the line at a level: a low line or abort finishes (terminal polarity, timer
stopped, interrupts enabled, SENT), else nothing changes. -/
def Obligations.RearmPollAndFinish : Prop :=
  ∀ (s : State) (h : Bool), s.running = true → s.seqState = .waitRearm → s.wrLevel = .level h →
    (h = false ∨ s.abort = true → step (s.withMove .seq) = .next { s with
      senseOut := decide (s.mode = .loader)
      tmrRun := false, cnt := signedValue s.cfg.cntWidth (Config.freeCnt s.draws), draws := s.draws + 1
      gie := true, outcome := .sent, seqState := .idle }) ∧
    (h = true → s.abort = false → step (s.withMove .seq) = .next s)

/-- R100, R109, R110: with the timer running, a tick adds one to the count and changes nothing else, unless a due deadline
action holds the timer; "While `TMR_RUN = 0`, `TIMER` has no step". How the sum wraps at the top of the signed range is
the two's complement of R26 (PRESUMED, log entry 11). -/
def Obligations.TimerTick : Prop :=
  ∀ s : State, s.running = true →
    (s.tmrRun = true →
      (∀ k, deadlineOf s.seqState = some k → s.reached k = true →
        s.elapsed < (threshold s.cfg k : Int) + s.cfg.latMax) →
      step (s.withMove .timer) = .next { s with cnt := signedValue s.cfg.cntWidth (s.cnt + 1) }) ∧
    (-(2 ^ (s.cfg.cntWidth - 1) : Int) ≤ s.cnt → s.cnt + 1 < 2 ^ (s.cfg.cntWidth - 1) →
      signedValue s.cfg.cntWidth (s.cnt + 1) = s.cnt + 1) ∧
    (s.tmrRun = false → step (s.withMove .timer) = .next s)

/-- R109: with the action of deadline k due, `TIMER` steps only if `CNT < T_k + LAT_MAX`; with `LAT_MAX = 0` it has no step
at all. -/
def Obligations.DueActionHoldsTheTimer : Prop :=
  ∀ (s : State) (k : Fin 6), s.running = true → s.tmrRun = true → deadlineOf s.seqState = some k →
    s.reached k = true →
    ((threshold s.cfg k : Int) + s.cfg.latMax ≤ s.elapsed → step (s.withMove .timer) = .next s) ∧
      (s.cfg.latMax = 0 → step (s.withMove .timer) = .next s)

/-- R34, R52, R53: the host's move sets `HOST_PULL` and nothing else, and faults where it pulls a driven line. -/
def Obligations.HostMove : Prop :=
  ∀ (s : State) (pull : Bool), s.running = true →
    (s.wrDir = false ∨ pull = false → step (s.withMove (.host pull)) = .next { s with hostPull := pull }) ∧
    (s.wrDir = true → pull = true → step (s.withMove (.host pull)) = .fault .busContention)

/-- R34, R162, R64: the motor pin, the CALLER and the system change only what is theirs; the CALLER is held while a word
waits; the system writes `GIE` only while the block is idle. -/
def Obligations.MotorCallerAndSystemMoves : Prop :=
  ∀ s : State, s.running = true →
    (∀ level, step (s.withMove (.motor level)) = .next { s with motor := level }) ∧
    (s.program ≠ [] → step (s.withMove .caller) = .next { s with presenting := true }) ∧
    (s.program = [] ∨ s.presenting = true → step (s.withMove .caller) = .next s) ∧
    (∀ b, s.seqState = .idle → step (s.withMove (.system b)) = .next { s with gie := b }) ∧
    (∀ b, s.seqState ≠ .idle → step (s.withMove (.system b)) = .next s)

/-! ### Faults and refusals -/

/-- R53, R183, R185: from a state in contention every step, of any agent, is the contention fault, so the fault is never
cleared; and where the lines hold the frame's levels, contention can only be between the SLOT0 and the RELEASE action. -/
def Obligations.ContentionStopsEveryAgent : Prop :=
  ∀ s : State, admitted s.cfg = true → s.wrDir = true → s.hostPull = true →
    step s = .fault .busContention ∧
      (s.frameLevels = true → s.badCode = false →
        s.seqState ∈ [SeqState.slot1, .slot2, .slot3, .release])

/-- R133, R183: from an unused code every step is the bad-state fault, unless the state is in contention; and no step
writes such a code. -/
def Obligations.UnusedCodeStopsEveryAgent : Prop :=
  (∀ (s : State) (offset : Fin 6), admitted s.cfg = true → ¬(s.wrDir = true ∧ s.hostPull = true) →
    s.seqState = .unused offset → step s = .fault .badState) ∧
  (∀ (s t : State) (offset : Fin 6), step s = .next t → t.seqState ≠ .unused offset)

/-- R5, R78, R110: a configuration that breaks a constraint is refused, whatever the move. -/
def Obligations.InadmissibleConfigurationIsRefused : Prop :=
  ∀ s : State,
    (s.cfg.clkHz < s.cfg.prescale * 1000000 ∨ s.cfg.deadlineUs[0] = 0 ∨
      (∃ k : Fin 5, s.cfg.deadlineUs[k.succ] ≤ s.cfg.deadlineUs[k.castSucc]) ∨
      s.cfg.offsetTicks < -(2 ^ (s.cfg.cntWidth - 1) : Int) ∨
      2 ^ (s.cfg.cntWidth - 1) ≤ threshold s.cfg 5 + s.cfg.latMax) →
    step s = .refused .badConfig

/-- R53, R206: a step of a running block faults only when the host breaks its duty: it holds
the line low at the SLOT0 action, or pulls it low while the block drives it. -/
def Obligations.OnlyTheHostCausesAFault : Prop :=
  ∀ (s : State) (f : Fault), s.running = true → step s = .fault f →
    f = .busContention ∧
      ((s.nextMove.1 = .seq ∧ s.seqState = .slot0 ∧ s.hostPull = true ∧ s.reached 0 = true) ∨
        (s.nextMove.1 = .host true ∧ s.wrDir = true))

/-- R8, R180: a step keeps the configuration, and a state it reaches may step again. -/
def Obligations.StepKeepsRunning : Prop :=
  ∀ s t : State, step s = .next t → s.running = true ∧ t.running = true ∧ t.cfg = s.cfg

/-! ### Invariants of every step -/

/-- R38: the write line is an input with pull-up whenever `STATE` is IDLE, WAIT_HS, ARM, SETTLE or WAIT_REARM; and, a reset
event apart, only the SLOT0 action ends that and only the RELEASE action restores it. -/
def Obligations.EveryStepKeepsTheLineParked : Prop :=
  ∀ s t : State, step s = .next t →
    (s.lineParked = true → t.lineParked = true) ∧
      (s.frameLevels = true → s.nextMove.1 ≠ .reset →
        (s.writeReleased = true → t.writeReleased = false → s.seqState = .slot0 ∧ t.seqState = .slot1) ∧
          (s.writeReleased = false → t.writeReleased = true → s.seqState = .release ∧ t.seqState = .settle))

/-- R27: `TMR_RUN` is 1 exactly in SLOT0 to WAIT_REARM. -/
def Obligations.EveryStepKeepsTimerMatchingState : Prop :=
  ∀ s t : State, step s = .next t → s.timerMatches = true → t.timerMatches = true

/-- R93: `GIE = 0` at every step of a command. -/
def Obligations.EveryStepKeepsInterruptsMaskedWhileBusy : Prop :=
  ∀ s t : State, step s = .next t → s.guardHolds = true → t.guardHolds = true

/-- R135, R140: the lines hold the levels of the frame: released before SLOT0 and after RELEASE, the arm polarity up to
SLOT0, the slot's pair in the drive window, D[3] up to the finish step, the terminal polarity after a sent byte. -/
def Obligations.EveryStepKeepsTheFrameLevels : Prop :=
  ∀ s t : State, step s = .next t → s.frameLevels = true → t.frameLevels = true

/-- R107, R109, R110: in each state the count stays between the previous threshold and `T_k + LAT_MAX` and never
wraps. -/
def Obligations.EveryStepKeepsTheCountInItsSlot : Prop :=
  ∀ s t : State, step s = .next t → s.timerMatches = true → s.countKept = true → t.countKept = true

/-- R107, R109, R211: a deadline action happens at a count in `[T_k, T_k + LAT_MAX]`, so exactly at `T_k` on this
hardware (`LAT_MAX = 0`), and does not change the count. -/
def Obligations.DeadlineActionsHappenOnTime : Prop :=
  ∀ (s t : State) (k : Fin 6), step s = .next t → s.timerMatches = true → s.countKept = true →
    deadlineOf s.seqState = some k → t.seqState ≠ s.seqState → s.nextMove.1 ≠ .reset →
    t.cnt = s.cnt ∧ (threshold s.cfg k : Int) ≤ s.cnt ∧ s.cnt ≤ (threshold s.cfg k : Int) + s.cfg.latMax ∧
      (s.cfg.latMax = 0 → s.cnt = threshold s.cfg k)

/-! ### Rules about the whole machine -/

/-- R120: the only transitions are the arrows of the state graph, each one `SEQ` step taken where its guard holds; a reset
event apart. -/
def Obligations.OnlyTheGraphsArrowsAreTaken : Prop :=
  ∀ s t : State, step s = .next t → s.nextMove.1 ≠ .reset → t.seqState ≠ s.seqState →
    s.nextMove.1 = .seq ∧ s.mayGo t.seqState = true

/-- R24, R137: only the SLOT0 action sets the write line's direction to output and only the RELEASE action sets it back,
a reset event apart. -/
def Obligations.OnlySlot0AndReleaseTurnTheLine : Prop :=
  ∀ s t : State, step s = .next t → s.nextMove.1 ≠ .reset → t.wrDir ≠ s.wrDir →
    (s.seqState = .slot0 ∧ t.seqState = .slot1 ∧ t.wrDir = true) ∨
      (s.seqState = .release ∧ t.seqState = .settle ∧ t.wrDir = false)

/-- R23, R135: only ARM, the four bit-slots and the finish step write sense. -/
def Obligations.OnlyArmSlotsAndFinishWriteSense : Prop :=
  ∀ s t : State, step s = .next t → s.nextMove.1 ≠ .reset → t.senseOut ≠ s.senseOut →
    s.nextMove.1 = .seq ∧
      (s.seqState, t.seqState) ∈ [(SeqState.arm, SeqState.slot0), (.slot0, .slot1), (.slot1, .slot2),
        (.slot2, .slot3), (.slot3, .release), (.waitRearm, .idle)]

/-- R28, R64, R93: `GIE` changes only at acceptance (to 0), at the two exits (to 1), and by the system while the block
is idle. -/
def Obligations.OnlyAcceptanceExitsAndTheSystemWriteGie : Prop :=
  ∀ s t : State, step s = .next t → s.nextMove.1 ≠ .reset → t.gie ≠ s.gie →
    (s.seqState = .idle ∧ t.seqState = .waitHs ∧ t.gie = false) ∨
      ((s.seqState = .waitHs ∨ s.seqState = .waitRearm) ∧ t.seqState = .idle ∧ t.gie = true) ∨
      (s.nextMove.1 = .system t.gie ∧ s.seqState = .idle)

/-- R30, R31, R62: `DATA` and `MODE` are written only at acceptance, from the word on the port. -/
def Obligations.OnlyAcceptanceWritesDataAndMode : Prop :=
  ∀ s t : State, step s = .next t → s.nextMove.1 ≠ .reset → (t.data ≠ s.data ∨ t.mode ≠ s.mode) →
    s.seqState = .idle ∧ t.seqState = .waitHs ∧
      ∃ (word : CmdWord), s.program = word :: t.program ∧ t.data = word.extractLsb' 0 8 ∧
        t.mode = modeOfBit (word.getLsbD 8)

/-- R35, R62: while the block is busy, what waits on the command port has no effect on any step: two blocks that differ
in the port and the CALLER's program alone take the same step. -/
def Obligations.BusyBlockIgnoresTheCommandPort : Prop :=
  ∀ (s : State) (p : List CmdWord) (v : Bool), s.busy = true → s.nextMove.1 ≠ .caller →
    step (s.withPort p v) = mapNext (fun t => t.withPort p v) (step s)

/-- R136: TXC of a byte leaves what TXL of that byte leaves, with `MODE` alone replaced (where the block was idle); two
blocks that differ in the mode, and in the sense level not from the SLOT0 action to the finish step, take the same
steps at the same counts with the same levels otherwise; and where their sense levels agree before ARM's action, they
agree until that action. So sense differs between ARM and SLOT0 and after the finish step only. -/
def Obligations.ModesTakeTheSameSteps : Prop :=
  (∀ (imm8 : Byte) (s : State), exec (.txc imm8) s =
    mapNext (fun t => { t with mode := if s.seqState = .idle then .commandMode else t.mode }) (exec (.txl imm8) s)) ∧
  (∀ a b : State, modeTwins a b → twinOutcomes (step a) (step b)) ∧
  ∀ a b a' b' : State, modeTwins a b → step a = .next a' → step b = .next b' →
    a.seqState ∈ [SeqState.idle, .waitHs, .arm] → b.senseOut = a.senseOut →
    b'.senseOut = a'.senseOut ∨ (a.seqState = .arm ∧ a'.seqState = .slot0)

/-! ### Runs -/

/-- R134, R186, R192: WAIT_HS and WAIT_REARM have no timeout: with their exit condition false, any number of polls
leaves the block as it is, and is no fault. -/
def Obligations.WaitsHaveNoTimeout : Prop :=
  ∀ (s : State) (n : Nat), s.running = true → s.abort = false →
    ((s.seqState = .waitHs ∧ s.wrLevel = .level false) ∨ (s.seqState = .waitRearm ∧ s.wrLevel = .level true)) →
    run n { s with schedule := List.replicate n .seq ++ s.schedule } = .next s

/-- R192, R100, R107: the counter reaches a deadline: from a count not above `T_k` in deadline state k, `T_k - CNT`
ticks lead to `CNT = T_k`, with nothing else changed, and there `Reached(k)` holds. -/
def Obligations.TicksReachTheDeadline : Prop :=
  ∀ (s : State) (k : Fin 6), s.running = true → s.tmrRun = true → deadlineOf s.seqState = some k →
    s.elapsed = s.cnt → s.cnt ≤ threshold s.cfg k →
    run ((threshold s.cfg k : Int) - s.cnt).toNat
        { s with schedule := List.replicate ((threshold s.cfg k : Int) - s.cnt).toNat .timer ++ s.schedule } =
      .next { s with cnt := threshold s.cfg k } ∧
    { s with cnt := (threshold s.cfg k : Int) }.reached k = true

/-- R138, R123, R204: a command accepted while abort is asserted takes the abort exit at its first poll: no line is
written, interrupts are enabled whatever they were, the timer is stopped, and the outcome is ABORTED. -/
def Obligations.AbortedCommandWritesNoLine : Prop :=
  ∀ (s : State) (word : CmdWord) (rest : List CmdWord), s.running = true → s.seqState = .idle →
    s.lineParked = true → s.abort = true → s.program = word :: rest → s.presenting = true →
    ∃ t, run 2 { s with schedule := .seq :: .seq :: s.schedule } = .next t ∧
      t.senseOut = s.senseOut ∧ t.wrDir = s.wrDir ∧ t.wrLatch = s.wrLatch ∧ t.gie = true ∧
      t.tmrRun = false ∧ t.outcome = .aborted ∧ t.seqState = .idle ∧ t.program = rest

/-- R140, R75, R76, R77: the trace of an undisturbed frame. From the launch position with a word on the port, the moves
up to row `j` lead to a state with that row's count and levels. A positive offset is left out (log entry 13). -/
def Obligations.FrameLeavesTheTraceOfItsByte : Prop :=
  ∀ (s : State) (word : CmdWord) (rest : List CmdWord) (j : Fin 7), s.readyForFrame = true →
    s.program = word :: rest → s.presenting = true →
    ∃ t, run (frameMoves s.cfg (j.val + 1)).length
        { s with schedule := frameMoves s.cfg (j.val + 1) } = .next t ∧
      (t.cnt, t.senseOut, t.wrDir, t.wrLatch) =
        frameRow s.cfg (modeOfBit (word.getLsbD 8)) (word.extractLsb' 0 8) j

/-- R139, R132, R160, R161: a whole undisturbed command: from the launch position, with a word on the port, the frame's
moves end in IDLE with the byte sent: terminal polarity, line released, timer stopped, interrupts enabled. A positive
offset is left out (log entry 13). -/
def Obligations.CommandSendsItsByteAndReturnsToIdle : Prop :=
  ∀ (s : State) (word : CmdWord) (rest : List CmdWord), s.readyForFrame = true →
    s.program = word :: rest → s.presenting = true →
    run (frameMoves s.cfg 8).length { s with schedule := frameMoves s.cfg 8 ++ s.schedule } =
      .next { s with
        senseOut := !word.getLsbD 8, wrDir := false, wrLatch := true, tmrRun := false
        cnt := signedValue s.cfg.cntWidth (Config.freeCnt s.draws), draws := s.draws + 1
        gie := true, seqState := .idle, data := word.extractLsb' 0 8
        mode := modeOfBit (word.getLsbD 8), outcome := .sent
        hostPull := true, presenting := false, program := rest }

/-- R212, R105, R106, R109: every run of the machine from ARM to the end of SETTLE, whatever the schedule and the other
agents do short of a reset event, has exactly `T_5 - OFFSET_TICKS` steps that change `CNT` when `LAT_MAX = 0`. From
any count in a deadline state the number is what is left to `T_5`, and at most `LAT_MAX` more. The offset is not
positive (`countKept`; log entry 13). -/
def Obligations.FrameTakesItsTicks : Prop :=
  ∀ (s : State) (n : Nat), s.timerMatches = true → s.countKept = true → settlesIn n s = true →
    (s.seqState = .arm ∨ (deadlineOf s.seqState).isSome = true) →
    (threshold s.cfg 5 : Int) ≤ s.cnt + ticksIn n s ∧
      s.cnt + ticksIn n s ≤ (threshold s.cfg 5 : Int) + s.cfg.latMax ∧
      (s.seqState = .arm → s.cfg.latMax = 0 → (ticksIn n s : Int) = threshold s.cfg 5 - s.cfg.offsetTicks)
end

