-- ==== Sys2Proof/Laws/State.lean ====
section
/-! SUPPORT. One lemma per field for each named update of State, true by rfl, so that no proof unfolds a record update. -/

namespace Sys2Proof.Machine.State

variable (s : State)

/-! `senseWrite` -/
@[simp] theorem senseWrite_senseOut (v : Bool) : (s.senseWrite v).senseOut = v := rfl
@[simp] theorem senseWrite_wrDir (v : Bool) : (s.senseWrite v).wrDir = s.wrDir := rfl
@[simp] theorem senseWrite_wrLatch (v : Bool) : (s.senseWrite v).wrLatch = s.wrLatch := rfl
@[simp] theorem senseWrite_cnt (v : Bool) : (s.senseWrite v).cnt = s.cnt := rfl
@[simp] theorem senseWrite_tmrRun (v : Bool) : (s.senseWrite v).tmrRun = s.tmrRun := rfl
@[simp] theorem senseWrite_gie (v : Bool) : (s.senseWrite v).gie = s.gie := rfl
@[simp] theorem senseWrite_seqState (v : Bool) : (s.senseWrite v).seqState = s.seqState := rfl
@[simp] theorem senseWrite_data (v : Bool) : (s.senseWrite v).data = s.data := rfl
@[simp] theorem senseWrite_mode (v : Bool) : (s.senseWrite v).mode = s.mode := rfl
@[simp] theorem senseWrite_outcome (v : Bool) : (s.senseWrite v).outcome = s.outcome := rfl
@[simp] theorem senseWrite_hostPull (v : Bool) : (s.senseWrite v).hostPull = s.hostPull := rfl
@[simp] theorem senseWrite_motor (v : Bool) : (s.senseWrite v).motor = s.motor := rfl
@[simp] theorem senseWrite_presenting (v : Bool) : (s.senseWrite v).presenting = s.presenting := rfl
@[simp] theorem senseWrite_program (v : Bool) : (s.senseWrite v).program = s.program := rfl
@[simp] theorem senseWrite_cfg (v : Bool) : (s.senseWrite v).cfg = s.cfg := rfl
@[simp] theorem senseWrite_schedule (v : Bool) : (s.senseWrite v).schedule = s.schedule := rfl
@[simp] theorem senseWrite_draws (v : Bool) : (s.senseWrite v).draws = s.draws := rfl

/-! `wrSetDir` -/
@[simp] theorem wrSetDir_senseOut (d : Bool) : (s.wrSetDir d).senseOut = s.senseOut := rfl
@[simp] theorem wrSetDir_wrDir (d : Bool) : (s.wrSetDir d).wrDir = d := rfl
@[simp] theorem wrSetDir_wrLatch (d : Bool) : (s.wrSetDir d).wrLatch = s.wrLatch := rfl
@[simp] theorem wrSetDir_cnt (d : Bool) : (s.wrSetDir d).cnt = s.cnt := rfl
@[simp] theorem wrSetDir_tmrRun (d : Bool) : (s.wrSetDir d).tmrRun = s.tmrRun := rfl
@[simp] theorem wrSetDir_gie (d : Bool) : (s.wrSetDir d).gie = s.gie := rfl
@[simp] theorem wrSetDir_seqState (d : Bool) : (s.wrSetDir d).seqState = s.seqState := rfl
@[simp] theorem wrSetDir_data (d : Bool) : (s.wrSetDir d).data = s.data := rfl
@[simp] theorem wrSetDir_mode (d : Bool) : (s.wrSetDir d).mode = s.mode := rfl
@[simp] theorem wrSetDir_outcome (d : Bool) : (s.wrSetDir d).outcome = s.outcome := rfl
@[simp] theorem wrSetDir_hostPull (d : Bool) : (s.wrSetDir d).hostPull = s.hostPull := rfl
@[simp] theorem wrSetDir_motor (d : Bool) : (s.wrSetDir d).motor = s.motor := rfl
@[simp] theorem wrSetDir_presenting (d : Bool) : (s.wrSetDir d).presenting = s.presenting := rfl
@[simp] theorem wrSetDir_program (d : Bool) : (s.wrSetDir d).program = s.program := rfl
@[simp] theorem wrSetDir_cfg (d : Bool) : (s.wrSetDir d).cfg = s.cfg := rfl
@[simp] theorem wrSetDir_schedule (d : Bool) : (s.wrSetDir d).schedule = s.schedule := rfl
@[simp] theorem wrSetDir_draws (d : Bool) : (s.wrSetDir d).draws = s.draws := rfl

/-! `wrWrite` -/
@[simp] theorem wrWrite_senseOut (v : Bool) : (s.wrWrite v).senseOut = s.senseOut := rfl
@[simp] theorem wrWrite_wrDir (v : Bool) : (s.wrWrite v).wrDir = s.wrDir := rfl
@[simp] theorem wrWrite_wrLatch (v : Bool) : (s.wrWrite v).wrLatch = v := rfl
@[simp] theorem wrWrite_cnt (v : Bool) : (s.wrWrite v).cnt = s.cnt := rfl
@[simp] theorem wrWrite_tmrRun (v : Bool) : (s.wrWrite v).tmrRun = s.tmrRun := rfl
@[simp] theorem wrWrite_gie (v : Bool) : (s.wrWrite v).gie = s.gie := rfl
@[simp] theorem wrWrite_seqState (v : Bool) : (s.wrWrite v).seqState = s.seqState := rfl
@[simp] theorem wrWrite_data (v : Bool) : (s.wrWrite v).data = s.data := rfl
@[simp] theorem wrWrite_mode (v : Bool) : (s.wrWrite v).mode = s.mode := rfl
@[simp] theorem wrWrite_outcome (v : Bool) : (s.wrWrite v).outcome = s.outcome := rfl
@[simp] theorem wrWrite_hostPull (v : Bool) : (s.wrWrite v).hostPull = s.hostPull := rfl
@[simp] theorem wrWrite_motor (v : Bool) : (s.wrWrite v).motor = s.motor := rfl
@[simp] theorem wrWrite_presenting (v : Bool) : (s.wrWrite v).presenting = s.presenting := rfl
@[simp] theorem wrWrite_program (v : Bool) : (s.wrWrite v).program = s.program := rfl
@[simp] theorem wrWrite_cfg (v : Bool) : (s.wrWrite v).cfg = s.cfg := rfl
@[simp] theorem wrWrite_schedule (v : Bool) : (s.wrWrite v).schedule = s.schedule := rfl
@[simp] theorem wrWrite_draws (v : Bool) : (s.wrWrite v).draws = s.draws := rfl

/-! `irqDisable` -/
@[simp] theorem irqDisable_senseOut : (s.irqDisable).senseOut = s.senseOut := rfl
@[simp] theorem irqDisable_wrDir : (s.irqDisable).wrDir = s.wrDir := rfl
@[simp] theorem irqDisable_wrLatch : (s.irqDisable).wrLatch = s.wrLatch := rfl
@[simp] theorem irqDisable_cnt : (s.irqDisable).cnt = s.cnt := rfl
@[simp] theorem irqDisable_tmrRun : (s.irqDisable).tmrRun = s.tmrRun := rfl
@[simp] theorem irqDisable_gie : (s.irqDisable).gie = false := rfl
@[simp] theorem irqDisable_seqState : (s.irqDisable).seqState = s.seqState := rfl
@[simp] theorem irqDisable_data : (s.irqDisable).data = s.data := rfl
@[simp] theorem irqDisable_mode : (s.irqDisable).mode = s.mode := rfl
@[simp] theorem irqDisable_outcome : (s.irqDisable).outcome = s.outcome := rfl
@[simp] theorem irqDisable_hostPull : (s.irqDisable).hostPull = s.hostPull := rfl
@[simp] theorem irqDisable_motor : (s.irqDisable).motor = s.motor := rfl
@[simp] theorem irqDisable_presenting : (s.irqDisable).presenting = s.presenting := rfl
@[simp] theorem irqDisable_program : (s.irqDisable).program = s.program := rfl
@[simp] theorem irqDisable_cfg : (s.irqDisable).cfg = s.cfg := rfl
@[simp] theorem irqDisable_schedule : (s.irqDisable).schedule = s.schedule := rfl
@[simp] theorem irqDisable_draws : (s.irqDisable).draws = s.draws := rfl

/-! `irqEnable` -/
@[simp] theorem irqEnable_senseOut : (s.irqEnable).senseOut = s.senseOut := rfl
@[simp] theorem irqEnable_wrDir : (s.irqEnable).wrDir = s.wrDir := rfl
@[simp] theorem irqEnable_wrLatch : (s.irqEnable).wrLatch = s.wrLatch := rfl
@[simp] theorem irqEnable_cnt : (s.irqEnable).cnt = s.cnt := rfl
@[simp] theorem irqEnable_tmrRun : (s.irqEnable).tmrRun = s.tmrRun := rfl
@[simp] theorem irqEnable_gie : (s.irqEnable).gie = true := rfl
@[simp] theorem irqEnable_seqState : (s.irqEnable).seqState = s.seqState := rfl
@[simp] theorem irqEnable_data : (s.irqEnable).data = s.data := rfl
@[simp] theorem irqEnable_mode : (s.irqEnable).mode = s.mode := rfl
@[simp] theorem irqEnable_outcome : (s.irqEnable).outcome = s.outcome := rfl
@[simp] theorem irqEnable_hostPull : (s.irqEnable).hostPull = s.hostPull := rfl
@[simp] theorem irqEnable_motor : (s.irqEnable).motor = s.motor := rfl
@[simp] theorem irqEnable_presenting : (s.irqEnable).presenting = s.presenting := rfl
@[simp] theorem irqEnable_program : (s.irqEnable).program = s.program := rfl
@[simp] theorem irqEnable_cfg : (s.irqEnable).cfg = s.cfg := rfl
@[simp] theorem irqEnable_schedule : (s.irqEnable).schedule = s.schedule := rfl
@[simp] theorem irqEnable_draws : (s.irqEnable).draws = s.draws := rfl

/-! `tmrReset` -/
@[simp] theorem tmrReset_senseOut (o : Int) : (s.tmrReset o).senseOut = s.senseOut := rfl
@[simp] theorem tmrReset_wrDir (o : Int) : (s.tmrReset o).wrDir = s.wrDir := rfl
@[simp] theorem tmrReset_wrLatch (o : Int) : (s.tmrReset o).wrLatch = s.wrLatch := rfl
@[simp] theorem tmrReset_cnt (o : Int) : (s.tmrReset o).cnt = signedValue s.cfg.cntWidth o := rfl
@[simp] theorem tmrReset_tmrRun (o : Int) : (s.tmrReset o).tmrRun = s.tmrRun := rfl
@[simp] theorem tmrReset_gie (o : Int) : (s.tmrReset o).gie = s.gie := rfl
@[simp] theorem tmrReset_seqState (o : Int) : (s.tmrReset o).seqState = s.seqState := rfl
@[simp] theorem tmrReset_data (o : Int) : (s.tmrReset o).data = s.data := rfl
@[simp] theorem tmrReset_mode (o : Int) : (s.tmrReset o).mode = s.mode := rfl
@[simp] theorem tmrReset_outcome (o : Int) : (s.tmrReset o).outcome = s.outcome := rfl
@[simp] theorem tmrReset_hostPull (o : Int) : (s.tmrReset o).hostPull = s.hostPull := rfl
@[simp] theorem tmrReset_motor (o : Int) : (s.tmrReset o).motor = s.motor := rfl
@[simp] theorem tmrReset_presenting (o : Int) : (s.tmrReset o).presenting = s.presenting := rfl
@[simp] theorem tmrReset_program (o : Int) : (s.tmrReset o).program = s.program := rfl
@[simp] theorem tmrReset_cfg (o : Int) : (s.tmrReset o).cfg = s.cfg := rfl
@[simp] theorem tmrReset_schedule (o : Int) : (s.tmrReset o).schedule = s.schedule := rfl
@[simp] theorem tmrReset_draws (o : Int) : (s.tmrReset o).draws = s.draws := rfl

/-! `tmrStart` -/
@[simp] theorem tmrStart_senseOut : (s.tmrStart).senseOut = s.senseOut := rfl
@[simp] theorem tmrStart_wrDir : (s.tmrStart).wrDir = s.wrDir := rfl
@[simp] theorem tmrStart_wrLatch : (s.tmrStart).wrLatch = s.wrLatch := rfl
@[simp] theorem tmrStart_cnt : (s.tmrStart).cnt = s.cnt := rfl
@[simp] theorem tmrStart_tmrRun : (s.tmrStart).tmrRun = true := rfl
@[simp] theorem tmrStart_gie : (s.tmrStart).gie = s.gie := rfl
@[simp] theorem tmrStart_seqState : (s.tmrStart).seqState = s.seqState := rfl
@[simp] theorem tmrStart_data : (s.tmrStart).data = s.data := rfl
@[simp] theorem tmrStart_mode : (s.tmrStart).mode = s.mode := rfl
@[simp] theorem tmrStart_outcome : (s.tmrStart).outcome = s.outcome := rfl
@[simp] theorem tmrStart_hostPull : (s.tmrStart).hostPull = s.hostPull := rfl
@[simp] theorem tmrStart_motor : (s.tmrStart).motor = s.motor := rfl
@[simp] theorem tmrStart_presenting : (s.tmrStart).presenting = s.presenting := rfl
@[simp] theorem tmrStart_program : (s.tmrStart).program = s.program := rfl
@[simp] theorem tmrStart_cfg : (s.tmrStart).cfg = s.cfg := rfl
@[simp] theorem tmrStart_schedule : (s.tmrStart).schedule = s.schedule := rfl
@[simp] theorem tmrStart_draws : (s.tmrStart).draws = s.draws := rfl

/-! `tmrStop` -/
@[simp] theorem tmrStop_senseOut : (s.tmrStop).senseOut = s.senseOut := rfl
@[simp] theorem tmrStop_wrDir : (s.tmrStop).wrDir = s.wrDir := rfl
@[simp] theorem tmrStop_wrLatch : (s.tmrStop).wrLatch = s.wrLatch := rfl
@[simp] theorem tmrStop_cnt : (s.tmrStop).cnt = signedValue s.cfg.cntWidth (Config.freeCnt s.draws) := rfl
@[simp] theorem tmrStop_tmrRun : (s.tmrStop).tmrRun = false := rfl
@[simp] theorem tmrStop_gie : (s.tmrStop).gie = s.gie := rfl
@[simp] theorem tmrStop_seqState : (s.tmrStop).seqState = s.seqState := rfl
@[simp] theorem tmrStop_data : (s.tmrStop).data = s.data := rfl
@[simp] theorem tmrStop_mode : (s.tmrStop).mode = s.mode := rfl
@[simp] theorem tmrStop_outcome : (s.tmrStop).outcome = s.outcome := rfl
@[simp] theorem tmrStop_hostPull : (s.tmrStop).hostPull = s.hostPull := rfl
@[simp] theorem tmrStop_motor : (s.tmrStop).motor = s.motor := rfl
@[simp] theorem tmrStop_presenting : (s.tmrStop).presenting = s.presenting := rfl
@[simp] theorem tmrStop_program : (s.tmrStop).program = s.program := rfl
@[simp] theorem tmrStop_cfg : (s.tmrStop).cfg = s.cfg := rfl
@[simp] theorem tmrStop_schedule : (s.tmrStop).schedule = s.schedule := rfl
@[simp] theorem tmrStop_draws : (s.tmrStop).draws = s.draws + 1 := rfl

/-! `setOutcome` -/
@[simp] theorem setOutcome_senseOut (o : TxOutcome) : (s.setOutcome o).senseOut = s.senseOut := rfl
@[simp] theorem setOutcome_wrDir (o : TxOutcome) : (s.setOutcome o).wrDir = s.wrDir := rfl
@[simp] theorem setOutcome_wrLatch (o : TxOutcome) : (s.setOutcome o).wrLatch = s.wrLatch := rfl
@[simp] theorem setOutcome_cnt (o : TxOutcome) : (s.setOutcome o).cnt = s.cnt := rfl
@[simp] theorem setOutcome_tmrRun (o : TxOutcome) : (s.setOutcome o).tmrRun = s.tmrRun := rfl
@[simp] theorem setOutcome_gie (o : TxOutcome) : (s.setOutcome o).gie = s.gie := rfl
@[simp] theorem setOutcome_seqState (o : TxOutcome) : (s.setOutcome o).seqState = s.seqState := rfl
@[simp] theorem setOutcome_data (o : TxOutcome) : (s.setOutcome o).data = s.data := rfl
@[simp] theorem setOutcome_mode (o : TxOutcome) : (s.setOutcome o).mode = s.mode := rfl
@[simp] theorem setOutcome_outcome (o : TxOutcome) : (s.setOutcome o).outcome = o := rfl
@[simp] theorem setOutcome_hostPull (o : TxOutcome) : (s.setOutcome o).hostPull = s.hostPull := rfl
@[simp] theorem setOutcome_motor (o : TxOutcome) : (s.setOutcome o).motor = s.motor := rfl
@[simp] theorem setOutcome_presenting (o : TxOutcome) : (s.setOutcome o).presenting = s.presenting := rfl
@[simp] theorem setOutcome_program (o : TxOutcome) : (s.setOutcome o).program = s.program := rfl
@[simp] theorem setOutcome_cfg (o : TxOutcome) : (s.setOutcome o).cfg = s.cfg := rfl
@[simp] theorem setOutcome_schedule (o : TxOutcome) : (s.setOutcome o).schedule = s.schedule := rfl
@[simp] theorem setOutcome_draws (o : TxOutcome) : (s.setOutcome o).draws = s.draws := rfl

/-! `goto` -/
@[simp] theorem goto_senseOut (q : SeqState) : (s.goto q).senseOut = s.senseOut := rfl
@[simp] theorem goto_wrDir (q : SeqState) : (s.goto q).wrDir = s.wrDir := rfl
@[simp] theorem goto_wrLatch (q : SeqState) : (s.goto q).wrLatch = s.wrLatch := rfl
@[simp] theorem goto_cnt (q : SeqState) : (s.goto q).cnt = s.cnt := rfl
@[simp] theorem goto_tmrRun (q : SeqState) : (s.goto q).tmrRun = s.tmrRun := rfl
@[simp] theorem goto_gie (q : SeqState) : (s.goto q).gie = s.gie := rfl
@[simp] theorem goto_seqState (q : SeqState) : (s.goto q).seqState = q := rfl
@[simp] theorem goto_data (q : SeqState) : (s.goto q).data = s.data := rfl
@[simp] theorem goto_mode (q : SeqState) : (s.goto q).mode = s.mode := rfl
@[simp] theorem goto_outcome (q : SeqState) : (s.goto q).outcome = s.outcome := rfl
@[simp] theorem goto_hostPull (q : SeqState) : (s.goto q).hostPull = s.hostPull := rfl
@[simp] theorem goto_motor (q : SeqState) : (s.goto q).motor = s.motor := rfl
@[simp] theorem goto_presenting (q : SeqState) : (s.goto q).presenting = s.presenting := rfl
@[simp] theorem goto_program (q : SeqState) : (s.goto q).program = s.program := rfl
@[simp] theorem goto_cfg (q : SeqState) : (s.goto q).cfg = s.cfg := rfl
@[simp] theorem goto_schedule (q : SeqState) : (s.goto q).schedule = s.schedule := rfl
@[simp] theorem goto_draws (q : SeqState) : (s.goto q).draws = s.draws := rfl

/-! `latch` -/
@[simp] theorem latch_senseOut (m : Mode) (d : Byte) : (s.latch m d).senseOut = s.senseOut := rfl
@[simp] theorem latch_wrDir (m : Mode) (d : Byte) : (s.latch m d).wrDir = s.wrDir := rfl
@[simp] theorem latch_wrLatch (m : Mode) (d : Byte) : (s.latch m d).wrLatch = s.wrLatch := rfl
@[simp] theorem latch_cnt (m : Mode) (d : Byte) : (s.latch m d).cnt = s.cnt := rfl
@[simp] theorem latch_tmrRun (m : Mode) (d : Byte) : (s.latch m d).tmrRun = s.tmrRun := rfl
@[simp] theorem latch_gie (m : Mode) (d : Byte) : (s.latch m d).gie = s.gie := rfl
@[simp] theorem latch_seqState (m : Mode) (d : Byte) : (s.latch m d).seqState = s.seqState := rfl
@[simp] theorem latch_data (m : Mode) (d : Byte) : (s.latch m d).data = d := rfl
@[simp] theorem latch_mode (m : Mode) (d : Byte) : (s.latch m d).mode = m := rfl
@[simp] theorem latch_outcome (m : Mode) (d : Byte) : (s.latch m d).outcome = s.outcome := rfl
@[simp] theorem latch_hostPull (m : Mode) (d : Byte) : (s.latch m d).hostPull = s.hostPull := rfl
@[simp] theorem latch_motor (m : Mode) (d : Byte) : (s.latch m d).motor = s.motor := rfl
@[simp] theorem latch_presenting (m : Mode) (d : Byte) : (s.latch m d).presenting = s.presenting := rfl
@[simp] theorem latch_program (m : Mode) (d : Byte) : (s.latch m d).program = s.program := rfl
@[simp] theorem latch_cfg (m : Mode) (d : Byte) : (s.latch m d).cfg = s.cfg := rfl
@[simp] theorem latch_schedule (m : Mode) (d : Byte) : (s.latch m d).schedule = s.schedule := rfl
@[simp] theorem latch_draws (m : Mode) (d : Byte) : (s.latch m d).draws = s.draws := rfl

/-! `withMove` -/
@[simp] theorem withMove_senseOut (m : Move) : (s.withMove m).senseOut = s.senseOut := rfl
@[simp] theorem withMove_wrDir (m : Move) : (s.withMove m).wrDir = s.wrDir := rfl
@[simp] theorem withMove_wrLatch (m : Move) : (s.withMove m).wrLatch = s.wrLatch := rfl
@[simp] theorem withMove_cnt (m : Move) : (s.withMove m).cnt = s.cnt := rfl
@[simp] theorem withMove_tmrRun (m : Move) : (s.withMove m).tmrRun = s.tmrRun := rfl
@[simp] theorem withMove_gie (m : Move) : (s.withMove m).gie = s.gie := rfl
@[simp] theorem withMove_seqState (m : Move) : (s.withMove m).seqState = s.seqState := rfl
@[simp] theorem withMove_data (m : Move) : (s.withMove m).data = s.data := rfl
@[simp] theorem withMove_mode (m : Move) : (s.withMove m).mode = s.mode := rfl
@[simp] theorem withMove_outcome (m : Move) : (s.withMove m).outcome = s.outcome := rfl
@[simp] theorem withMove_hostPull (m : Move) : (s.withMove m).hostPull = s.hostPull := rfl
@[simp] theorem withMove_motor (m : Move) : (s.withMove m).motor = s.motor := rfl
@[simp] theorem withMove_presenting (m : Move) : (s.withMove m).presenting = s.presenting := rfl
@[simp] theorem withMove_program (m : Move) : (s.withMove m).program = s.program := rfl
@[simp] theorem withMove_cfg (m : Move) : (s.withMove m).cfg = s.cfg := rfl
@[simp] theorem withMove_schedule (m : Move) : (s.withMove m).schedule = m :: s.schedule := rfl
@[simp] theorem withMove_draws (m : Move) : (s.withMove m).draws = s.draws := rfl

end Sys2Proof.Machine.State
end

