-- ==== Sys2Proof/Laws/Ops.lean ====
section
/-! SUPPORT. What the shared operations can do: `checked`, the faults a state records, reads of the write line, and
signed counter values. -/

namespace Sys2Proof.Machine

/-! ### Faults and `checked` -/

theorem faultOf_eq_none_iff (s : State) :
    s.faultOf = none ↔ ¬(s.wrDir = true ∧ s.hostPull = true) ∧ s.badCode = false := by
  cases hd : s.wrDir <;> cases hp : s.hostPull <;> cases hb : s.badCode <;>
    simp [State.faultOf, State.contention, hd, hp, hb]

theorem faultOf_contention (s : State) (hd : s.wrDir = true) (hp : s.hostPull = true) :
    s.faultOf = some .busContention := by
  simp [State.faultOf, State.contention, hd, hp]

theorem faultOf_badCode (s : State) (hc : ¬(s.wrDir = true ∧ s.hostPull = true)) (hb : s.badCode = true) :
    s.faultOf = some .badState := by
  have : s.contention = false := by simpa [State.contention] using hc
  simp [State.faultOf, this, hb]

theorem badCode_eq_true_iff (s : State) : s.badCode = true ↔ ∃ offset, s.seqState = .unused offset := by
  unfold State.badCode
  cases s.seqState <;> simp

theorem running_iff (s : State) : s.running = true ↔ admitted s.cfg = true ∧ s.faultOf = none := by
  simp [State.running]

/-- A step answers a next state exactly where the model may step and that state records no fault. -/
theorem checked_eq_next_iff (s a t : State) :
    checked s a = .next t ↔ s.running = true ∧ a.faultOf = none ∧ t = a := by
  rw [running_iff]
  unfold checked
  cases admitted s.cfg <;> cases s.faultOf <;> cases a.faultOf <;> simp [eq_comm]

/-- A step faults exactly where the configuration is admitted and the state before it, or else the one after it,
records that fault. -/
theorem checked_eq_fault_iff (s a : State) (f : Fault) :
    checked s a = .fault f ↔
      admitted s.cfg = true ∧ (s.faultOf = some f ∨ s.faultOf = none ∧ a.faultOf = some f) := by
  unfold checked
  cases admitted s.cfg <;> cases s.faultOf <;> cases a.faultOf <;> simp

/-- A step is refused exactly where the configuration is not admitted. -/
theorem checked_eq_refused_iff (s a : State) (r : Refusal) :
    checked s a = .refused r ↔ admitted s.cfg = false ∧ r = .badConfig := by
  unfold checked
  cases admitted s.cfg <;> cases s.faultOf <;> cases a.faultOf <;> simp [eq_comm]

/-- `checked` looks at the state before a step only for its configuration and its fault. -/
theorem checked_congr {s s' : State} (a : State) (hc : s.cfg = s'.cfg) (hf : s.faultOf = s'.faultOf) :
    checked s a = checked s' a := by
  simp only [checked, hc, hf]

/-! ### Reads of the write line -/

theorem wrRead_level {s : State} {v : Bool} (h : s.wrLevel = .level v) : s.wrRead = (v, s) := by
  simp [State.wrRead, h]

theorem wrRead_floating {s : State} (h : s.wrLevel = .floating) :
    s.wrRead = (Config.freeLevel s.draws, { s with draws := s.draws + 1 }) := by
  simp [State.wrRead, h]

/-- A read changes nothing but the count of free values. -/
theorem wrRead_frame (s : State) : s.wrRead.2 = { s with draws := s.wrRead.2.draws } := by
  unfold State.wrRead
  split <;> rfl

/-! ### Signed counter values -/

/-- A value in the signed range reads as itself. -/
theorem signedValue_eq_self {w : Nat} {x : Int} (hw : 0 < w) (hl : -(2 ^ (w - 1) : Int) ≤ x)
    (hu : x < 2 ^ (w - 1)) : signedValue w x = x := by
  obtain ⟨n, rfl⟩ : ∃ n, w = n + 1 := ⟨w - 1, by omega⟩
  have e : (2 ^ (n + 1) : Nat) = 2 * 2 ^ n := by ring
  simp only [Nat.add_sub_cancel] at hl hu
  unfold signedValue
  rw [Int.bmod_eq_of_le] <;> rw [e] <;> push_cast <;> omega

/-- Reading twice reads the same. -/
theorem signedValue_idem (w : Nat) (x : Int) : signedValue w (signedValue w x) = signedValue w x := by
  simp [signedValue]

theorem admitted_iff (c : Config) :
    admitted c = true ↔ clockAdmitted c = true ∧ deadlinesAdmitted c = true ∧ widthAdmitted c = true := by
  simp [admitted, and_assoc]

/-- An offset below the top of the signed range fits the counter of an admitted configuration (R110). -/
theorem signedValue_offset_of_lt {c : Config} (ha : admitted c = true)
    (ho : c.offsetTicks < 2 ^ (c.cntWidth - 1)) : signedValue c.cntWidth c.offsetTicks = c.offsetTicks := by
  obtain ⟨-, -, hw⟩ := (admitted_iff c).1 ha
  simp only [widthAdmitted, Bool.and_eq_true, decide_eq_true_eq] at hw
  exact signedValue_eq_self hw.1.1 hw.1.2 ho

/-- So does one that is not positive (R106). -/
theorem signedValue_offset {c : Config} (ha : admitted c = true) (ho : c.offsetTicks ≤ 0) :
    signedValue c.cntWidth c.offsetTicks = c.offsetTicks :=
  signedValue_offset_of_lt ha (lt_of_le_of_lt ho (by positivity))

/-- The bounds of `countBetween` as inequalities. -/
theorem countBetween_iff (s : State) (low : Int) (k : Fin 6) :
    s.countBetween low k = true ↔ low ≤ s.cnt ∧ s.cnt ≤ (threshold s.cfg k : Int) + s.cfg.latMax := by
  simp [State.countBetween]

theorem reached_iff (s : State) (k : Fin 6) : s.reached k = true ↔ (threshold s.cfg k : Int) ≤ s.elapsed := by
  simp [State.reached]

/-- The parts of the count's invariant. -/
theorem countKept_iff (s : State) :
    s.countKept = true ↔ admitted s.cfg = true ∧ s.cfg.offsetTicks ≤ 0 ∧ s.elapsed = s.cnt ∧ s.countInSlot = true := by
  simp [State.countKept, and_assoc]

end Sys2Proof.Machine
end

