-- ==== Sys2Proof/Laws/PerInstr.lean ====
section
/-! SUPPORT. Per-command facts about the encoding: each command's word matches its row of the opcode table (R72), and
carries the operand in bits [7:0] (R70). -/

namespace Sys2Proof.Laws.OpcodeRow

/-- The `match` value of a command's row (R72). -/
def matchBits : Instr → CmdWord
  | .txl _ => 0x000
  | .txc _ => 0x100

/-- The byte a command transmits. -/
def operandByte : Instr → Byte
  | .txl imm8 => imm8
  | .txc imm8 => imm8

/-- The word masked by 0x100 is the row's match value, and its low byte is the operand (R70, R72). -/
def Statement (i : Instr) : Prop :=
  encode i &&& 0x100 = matchBits i ∧ (encode i).extractLsb' 0 8 = operandByte i

theorem txl (imm8 : Byte) : Statement (.txl imm8) := by
  constructor <;> simp only [encode, matchBits, operandByte] <;> revert imm8 <;> decide

theorem txc (imm8 : Byte) : Statement (.txc imm8) := by
  constructor <;> simp only [encode, matchBits, operandByte] <;> revert imm8 <;> decide

end Sys2Proof.Laws.OpcodeRow
end

