-- ==== Sys2Proof/Laws/Step.lean ====
section
/-! SUPPORT. Every step of every agent is `checked s (after m s)`: the state a move leads to, said once, and what follows
for an answer of `step`. -/

namespace Sys2Proof.Machine

/-- The state a command leads to. -/
def afterCommand (i : Instr) (s : State) : State :=
  if s.cmdReady then
    match i with
    | .txl imm8 => accepted .loader imm8 s
    | .txc imm8 => accepted .commandMode imm8 s
  else s

/-- The state a move leads to. -/
def after (m : Move) (s : State) : State :=
  match m with
  | .seq =>
    match s.seqState, s.fetch with
    | .idle, some (word, taken) => afterCommand (decode word) taken
    | _, _ => seqBody s
  | .timer => s.timerTick
  | .host pull => { s with hostPull := pull }
  | .motor level => { s with motor := level }
  | .caller => s.callerStep
  | .system enable => s.systemStep enable
  | .reset => s.resetEvent

theorem exec_eq_checked (i : Instr) (s : State) : exec i s = checked s (afterCommand i s) := by
  cases i <;> rfl

/-- Taking the word from the port leaves the registers, the inputs and the configuration. -/
theorem fetch_some {s taken : State} {word : CmdWord} (h : s.fetch = some (word, taken)) :
    s.presenting = true ∧ ∃ rest, s.program = word :: rest ∧
      taken = { s with program := rest, presenting := false } := by
  unfold State.fetch at h
  split at h
  · rename_i w r hp hq
    simp only [Option.some.injEq, Prod.mk.injEq] at h
    exact ⟨hp, r, by rw [hq, h.1], h.2.symm⟩
  · simp at h

theorem perform_eq_checked (m : Move) (s : State) : perform m s = checked s (after m s) := by
  cases m <;> try rfl
  show seqStep s = checked s (after .seq s)
  rcases hf : s.fetch with _ | ⟨word, taken⟩ <;> cases hq : s.seqState <;>
    simp [seqStep, after, hq, hf, exec_eq_checked]
  obtain ⟨-, rest, -, rfl⟩ := fetch_some hf
  exact checked_congr _ rfl rfl

theorem step_withMove (s : State) (m : Move) : step (s.withMove m) = checked s (after m s) := by
  rw [← perform_eq_checked]
  rfl

/-- The state the next move is performed in differs from `s` in the schedule and the count of free values alone. -/
theorem nextMove_frame (s : State) :
    s.nextMove.2 = { s with schedule := s.nextMove.2.schedule, draws := s.nextMove.2.draws } := by
  unfold State.nextMove
  split <;> rfl

theorem step_eq_checked (s : State) : step s = checked s.nextMove.2 (after s.nextMove.1 s.nextMove.2) :=
  perform_eq_checked _ _

@[simp] theorem nextMove_running (s : State) : s.nextMove.2.running = s.running := by
  rw [nextMove_frame]
  rfl

/-- What an answer of `step` says: the model could step, the state reached records no fault, and it is the one the next
move leads to. -/
theorem step_eq_next_iff (s t : State) :
    step s = .next t ↔
      s.running = true ∧ t.faultOf = none ∧ t = after s.nextMove.1 s.nextMove.2 := by
  rw [step_eq_checked, checked_eq_next_iff, nextMove_running]
  constructor
  · rintro ⟨hr, hf, rfl⟩
    exact ⟨hr, hf, rfl⟩
  · rintro ⟨hr, hf, rfl⟩
    exact ⟨hr, hf, rfl⟩

/-- A scheduled move's step, where the model may step and the state reached records no fault. -/
theorem step_withMove_eq_next {s : State} {m : Move} (hr : s.running = true)
    (hf : (after m s).faultOf = none) : step (s.withMove m) = .next (after m s) := by
  rw [step_withMove, checked_eq_next_iff]
  exact ⟨hr, hf, rfl⟩

/-! ### What a step can do, said once -/

/-- The two facts a running state gives: the host does not pull a driven line, and `STATE` is a named code. -/
theorem running_facts {s : State} (h : s.running = true) :
    admitted s.cfg = true ∧ (s.wrDir = true → s.hostPull = false) ∧ s.badCode = false := by
  rw [running_iff, faultOf_eq_none_iff] at h
  refine ⟨h.1, fun hd => ?_, h.2.2⟩
  by_contra hp
  exact h.2.1 ⟨hd, by simpa using hp⟩

/-- Such a state records no fault. -/
theorem faultOf_none {s : State} (hc : s.wrDir = true → s.hostPull = false) (hb : s.badCode = false) :
    s.faultOf = none := by
  rw [faultOf_eq_none_iff]
  refine ⟨?_, hb⟩
  rintro ⟨hd, hp⟩
  simp [hc hd] at hp

/-- `SEQ` in a busy block performs the state action. -/
theorem after_seq_busy {s : State} (h : s.seqState ≠ .idle) : after .seq s = seqBody s := by
  simp only [after]
  split
  · contradiction
  · rfl

/-- The handshake poll (R122, R123): one of three ends, after a read that at most counts a draw. -/
theorem handshakePoll_cases (s : State) : ∃ n,
    (s.abort = true ∧ handshakePoll s = abortExit { s with draws := n }) ∨
      (s.abort = false ∧ s.wrLevel ≠ .level false ∧ handshakePoll s = { s with draws := n }.goto .arm) ∨
      (s.abort = false ∧ s.wrLevel ≠ .level true ∧ handshakePoll s = { s with draws := n }) := by
  have hl : ∀ v, s.wrLevel = .level v → s.wrRead.1 = v := fun v h => by rw [wrRead_level h]
  refine ⟨s.wrRead.2.draws, ?_⟩
  rw [← wrRead_frame]
  unfold handshakePoll
  cases ha : s.abort <;> cases hr : s.wrRead.1 <;> simp_all

/-- The re-arm poll (R131): it finishes or repeats, after a read that at most counts a draw. -/
theorem rearmPoll_cases (s : State) : ∃ n,
    ((s.abort = true ∨ s.wrLevel ≠ .level true) ∧ rearmPoll s = finishAction { s with draws := n }) ∨
      (s.abort = false ∧ s.wrLevel ≠ .level false ∧ rearmPoll s = { s with draws := n }) := by
  have hl : ∀ v, s.wrLevel = .level v → s.wrRead.1 = v := fun v h => by rw [wrRead_level h]
  refine ⟨s.wrRead.2.draws, ?_⟩
  rw [← wrRead_frame]
  unfold rearmPoll
  cases ha : s.abort <;> cases hr : s.wrRead.1 <;> simp_all

/-- A deadline state holds or acts (R107). -/
theorem whenReached_cases (k : Fin 6) (action : State → State) (s : State) :
    whenReached k action s = s ∨ (s.reached k = true ∧ whenReached k action s = action s) := by
  unfold whenReached
  split <;> simp_all

/-- Everything a move can lead to: `Effect s m t` when the move `m`, performed in `s`, may lead to `t`. -/
inductive Effect (s : State) : Move → State → Prop
  | accept (word : CmdWord) (rest : List CmdWord) : s.seqState = .idle → s.program = word :: rest →
      s.presenting = true →
      Effect s .seq (accepted (modeOfBit (word.getLsbD 8)) (word.extractLsb' 0 8)
        { s with program := rest, presenting := false })
  | hold (n : Nat) : Effect s .seq { s with draws := n }
  | aborted (n : Nat) : s.seqState = .waitHs → s.abort = true → Effect s .seq (abortExit { s with draws := n })
  | handshake (n : Nat) : s.seqState = .waitHs → s.abort = false → s.wrLevel ≠ .level false →
      Effect s .seq ({ s with draws := n }.goto .arm)
  | arm : s.seqState = .arm → Effect s .seq (armAction s)
  | slot0 : s.seqState = .slot0 → s.reached 0 = true → Effect s .seq (slot0Action s)
  | slot1 : s.seqState = .slot1 → s.reached 1 = true → Effect s .seq (slot1Action s)
  | slot2 : s.seqState = .slot2 → s.reached 2 = true → Effect s .seq (slot2Action s)
  | slot3 : s.seqState = .slot3 → s.reached 3 = true → Effect s .seq (slot3Action s)
  | release : s.seqState = .release → s.reached 4 = true → Effect s .seq (releaseAction s)
  | settle : s.seqState = .settle → s.reached 5 = true → Effect s .seq (settleAction s)
  | finish (n : Nat) : s.seqState = .waitRearm → (s.abort = true ∨ s.wrLevel ≠ .level true) →
      Effect s .seq (finishAction { s with draws := n })
  | tick : s.tickAllowed = true →
      Effect s .timer { s with cnt := signedValue s.cfg.cntWidth (s.cnt + 1) }
  | noTick : s.tickAllowed = false → Effect s .timer s
  | host (pull : Bool) : Effect s (.host pull) { s with hostPull := pull }
  | motor (level : Bool) : Effect s (.motor level) { s with motor := level }
  | caller (v : Bool) : Effect s .caller { s with presenting := v }
  | system (enable : Bool) : s.seqState = .idle → Effect s (.system enable) { s with gie := enable }
  | noSystem (enable : Bool) : s.seqState ≠ .idle → Effect s (.system enable) s
  | reset : Effect s .reset s.resetEvent

/-- An action behind its deadline is one of the effects of `SEQ`. -/
theorem effect_whenReached {s : State} (k : Fin 6) (action : State → State)
    (h : s.reached k = true → Effect s .seq (action s)) : Effect s .seq (whenReached k action s) := by
  rcases whenReached_cases k action s with e | ⟨hr, e⟩ <;> rw [e]
  · exact .hold s.draws
  · exact h hr

/-- The state action leads to one of the effects of `SEQ` (R120). -/
theorem effect_seqBody (s : State) : Effect s .seq (seqBody s) := by
  unfold seqBody
  split <;> rename_i hq
  · exact .hold s.draws
  · obtain ⟨n, ⟨ha, h⟩ | ⟨ha, hl, h⟩ | ⟨-, -, h⟩⟩ := handshakePoll_cases s <;> rw [h]
    exacts [.aborted n hq ha, .handshake n hq ha hl, .hold n]
  · exact .arm hq
  · exact effect_whenReached 0 slot0Action (.slot0 hq)
  · exact effect_whenReached 1 slot1Action (.slot1 hq)
  · exact effect_whenReached 2 slot2Action (.slot2 hq)
  · exact effect_whenReached 3 slot3Action (.slot3 hq)
  · exact effect_whenReached 4 releaseAction (.release hq)
  · exact effect_whenReached 5 settleAction (.settle hq)
  · obtain ⟨n, ⟨hc, h⟩ | ⟨-, -, h⟩⟩ := rearmPoll_cases s <;> rw [h]
    exacts [.finish n hq hc, .hold n]
  · exact .hold s.draws

/-- The acceptance of a decoded word (R71, R121). -/
theorem afterCommand_decode {s : State} (hq : s.seqState = .idle) (word : CmdWord) :
    afterCommand (decode word) s = accepted (modeOfBit (word.getLsbD 8)) (word.extractLsb' 0 8) s := by
  simp only [afterCommand, State.cmdReady, State.busy, hq, decode]
  cases word.getLsbD 8 <;> simp [modeOfBit]

/-- Every move leads to one of its effects. -/
theorem effect_after (m : Move) (s : State) : Effect s m (after m s) := by
  cases m with
  | seq =>
    simp only [after]
    split
    · rename_i word taken hq hf
      obtain ⟨hp, rest, hw, rfl⟩ := fetch_some hf
      rw [afterCommand_decode (by exact hq)]
      exact .accept word rest hq hw hp
    · exact effect_seqBody s
  | timer =>
    simp only [after, State.timerTick]
    split <;> rename_i ht
    · exact .tick ht
    · exact .noTick (by simpa using ht)
  | host pull => exact .host pull
  | motor level => exact .motor level
  | caller =>
    simp only [after, State.callerStep]
    split
    · exact .caller s.presenting
    · exact .caller true
  | system enable =>
    by_cases hq : s.seqState = .idle
    · have e : after (.system enable) s = { s with gie := enable } := by
        simp [after, State.systemStep, State.busy, hq]
      rw [e]
      exact .system enable hq
    · have e : after (.system enable) s = s := by simp [after, State.systemStep, State.busy, hq]
      rw [e]
      exact .noSystem enable hq
  | reset => exact .reset

/-- The inversion of `step`: where it answers a next state, that state is an effect of the next move on `s` with its
schedule and draws advanced, the model could step, and no fault is recorded. -/
theorem step_effect {s t : State} (h : step s = .next t) :
    ∃ u : State, u = { s with schedule := u.schedule, draws := u.draws } ∧ s.running = true ∧
      t.faultOf = none ∧ Effect u s.nextMove.1 t := by
  obtain ⟨hr, hf, rfl⟩ := (step_eq_next_iff s t).1 h
  exact ⟨s.nextMove.2, nextMove_frame s, hr, hf, effect_after _ _⟩

/-! ### Runs -/

@[simp] theorem run_zero (s : State) : run 0 s = .next s := rfl

/-- A run's first step. -/
theorem run_succ {n : Nat} {s t : State} (h : step s = .next t) : run (n + 1) s = run n t := by
  have h : Sys2Proof.core.step s = .next t := h
  simp only [run, Host.Core.run, h]
  rfl

/-- A run goes on from where its first part ends. -/
theorem run_add {n m : Nat} {s t : State} (h : run n s = .next t) : run (n + m) s = run m t := by
  induction n generalizing s with
  | zero =>
    cases h
    rw [Nat.zero_add]
  | succ n ih =>
    cases hs : step s with
    | next u =>
      rw [run_succ hs] at h
      rw [Nat.succ_add, run_succ hs, ih h]
    | fault f =>
      have hs : Sys2Proof.core.step s = .fault f := hs
      simp [run, Host.Core.run, hs] at h
    | refused r =>
      have hs : Sys2Proof.core.step s = .refused r := hs
      simp [run, Host.Core.run, hs] at h

/-! ### Ticks up to the end of SETTLE -/

@[simp] theorem ticksIn_zero (s : State) : ticksIn 0 s = 0 := rfl

/-- A step counts where it changes the count. -/
theorem ticksIn_succ {n : Nat} {s t : State} (h : step s = .next t) :
    ticksIn (n + 1) s = (if t.cnt = s.cnt then 0 else 1) + ticksIn n t := by
  simp only [ticksIn, h]

@[simp] theorem settlesIn_zero (s : State) : settlesIn 0 s = true ↔ s.seqState = .waitRearm := by
  simp [settlesIn]

/-- The first of the steps that lead to `WAIT_REARM`. -/
theorem settlesIn_succ {n : Nat} {s : State} (h : settlesIn (n + 1) s = true) :
    s.seqState ≠ .waitRearm ∧ s.nextMove.1 ≠ .reset ∧ ∃ t, step s = .next t ∧ settlesIn n t = true := by
  simp only [settlesIn, Bool.and_eq_true, decide_eq_true_eq] at h
  obtain ⟨⟨hq, hm⟩, h⟩ := h
  refine ⟨hq, hm, ?_⟩
  cases hs : step s with
  | next t => exact ⟨t, rfl, by simpa [hs] using h⟩
  | fault f => simp [hs] at h
  | refused r => simp [hs] at h

end Sys2Proof.Machine
end

