-- ==== Sys2Proof/Machine/Assembly.lean ====
section
/-! DEFINITION. The assembly syntax of 30_encoding.md R80: `TXL <imm8>` and `TXC <imm8>`, the operand in decimal, `0x`
hexadecimal or `0b` binary. Spacing and letter case are log entry 21. -/

namespace Sys2Proof.Machine

/-- Why a line is no command. -/
inductive AsmError where
  /-- The line does not begin with `TXL` or `TXC` and a space. -/
  | unknownMnemonic
  /-- The operand is no number of the three forms. -/
  | notANumber
  /-- "Any other value is an assembly error" (R80). -/
  | outOfRange (value : Nat)
  deriving DecidableEq, Repr

/-- The value of one digit character in a base. -/
def digitValue (base : Nat) (c : Char) : Option Nat :=
  let v : Option Nat :=
    if '0' ≤ c ∧ c ≤ '9' then some (c.toNat - '0'.toNat)
    else if 'a' ≤ c ∧ c ≤ 'f' then some (c.toNat - 'a'.toNat + 10)
    else if 'A' ≤ c ∧ c ≤ 'F' then some (c.toNat - 'A'.toNat + 10)
    else none
  v.filter (· < base)

/-- The number the digits spell, most significant first, after the value `acc`. -/
def digitsFrom (base acc : Nat) : List Char → Option Nat
  | [] => some acc
  | c :: rest =>
    match digitValue base c with
    | some v => digitsFrom base (acc * base + v) rest
    | none => none

/-- At least one digit in the base. -/
def digits (base : Nat) (cs : List Char) : Option Nat :=
  if cs.isEmpty then none else digitsFrom base 0 cs

/-- A number written in decimal, `0x` hexadecimal or `0b` binary (R80). -/
def number : List Char → Option Nat
  | '0' :: 'x' :: rest => digits 16 rest
  | '0' :: 'b' :: rest => digits 2 rest
  | cs => digits 10 cs

/-- The operand `<imm8>`. -/
def operand (cs : List Char) : Except AsmError Byte :=
  match number (cs.dropWhile (· = ' ')) with
  | none => .error .notANumber
  | some v => if operandInRange v then .ok (BitVec.ofNat 8 v) else .error (.outOfRange v)

/-- One line of assembly (R80); there are no pseudo-instructions. -/
def assemble : List Char → Except AsmError Instr
  | 'T' :: 'X' :: 'L' :: ' ' :: rest => (operand rest).map .txl
  | 'T' :: 'X' :: 'C' :: ' ' :: rest => (operand rest).map .txc
  | _ => .error .unknownMnemonic

end Sys2Proof.Machine
end

