-- ==== Sys2Proof/Machine/Script.lean ====
section
/-! DEFINITION. The program notation of 30_encoding.md R81: commands with host and motor scripts, as a bench that picks
the machine's next move. The bench is outside State; it only fills the schedule (log entry 20). -/

namespace Sys2Proof.Machine

/-- The events of R81. -/
inductive Event where
  /-- `accept`: the acceptance step. -/
  | accept
  /-- `poll<n>`: the n-th `WAIT_HS` poll, counted from 1. -/
  | poll (n : Nat)
  /-- `cnt=<v>`: the tick at which `CNT` becomes v. -/
  | cnt (v : Int)
  /-- `rearm<n>`: the n-th `WAIT_REARM` poll, counted from 1. -/
  | rearm (n : Nat)
  deriving DecidableEq, Repr

/-- The scripted changes of R81. -/
inductive Change where
  /-- `HOST: high`: the host releases the write line. -/
  | hostHigh
  /-- `HOST: low`: the host pulls it low. -/
  | hostLow
  /-- `MOTOR: on`: the abort input becomes 1. -/
  | motorOn
  /-- `MOTOR: off`: the abort input becomes 0. -/
  | motorOff
  deriving DecidableEq, Repr

/-- One script line, `<change>@<event>`. -/
structure ScriptLine where
  change : Change
  event : Event
  deriving DecidableEq, Repr

/-- A command with its script. -/
structure ScriptedCommand where
  command : Instr
  script : List ScriptLine
  deriving DecidableEq, Repr

/-- A machine under a script: the current command's lines still to come, the polls its two waits have made, whether the
current count has been polled in `WAIT_REARM`, and the commands after it. -/
structure Bench where
  machine : State
  lines : List ScriptLine
  polls : Nat
  rearms : Nat
  polledHere : Bool
  rest : List ScriptedCommand
  deriving DecidableEq, Repr

/-- The move that makes a scripted change. -/
def changeMove (c : Config) : Change → Move
  | .hostHigh => .host false
  | .hostLow => .host true
  | .motorOn => .motor c.motorActiveLevel
  | .motorOff => .motor (!c.motorActiveLevel)

/-- An event's time has come: the command has been accepted; the n-th poll is the next; `CNT` is v while the timer
runs. DESIGN CHOICE (log entry 20): for v = `OFFSET_TICKS` no tick gives that count, the timer reset loads it, and
the event is due right after ARM, at the first step at which the timer runs. -/
def Bench.due (b : Bench) (e : Event) : Bool :=
  match e with
  | .accept => b.machine.busy
  | .poll n => decide (b.machine.seqState = .waitHs) && decide (b.polls + 1 = n)
  | .cnt v => b.machine.tmrRun && decide (b.machine.elapsed = v)
  | .rearm n => decide (b.machine.seqState = .waitRearm) && decide (b.rearms + 1 = n)

/-- A deadline action is due; it comes before the next tick (R109, R183) and before a change at the same count. -/
def Bench.actionDue (b : Bench) : Bool :=
  match deadlineOf b.machine.seqState with
  | some k => b.machine.reached k
  | none => false

/-- The next move under the script, and the bench with that choice noted; none when every command is done. -/
def Bench.choose (b : Bench) : Option (Move × Bench) :=
  if b.actionDue then some (.seq, b)
  else
    match b.lines.find? (fun l => b.due l.event) with
    | some l => some (changeMove b.machine.cfg l.change, { b with lines := b.lines.erase l })
    | none =>
      match b.machine.seqState with
      | .idle =>
        if b.machine.cmdValid then some (.seq, { b with polls := 0, rearms := 0, polledHere := false })
        else
          match b.rest with
          | [] => none
          | c :: more =>
            some (.caller,
              { b with
                machine := { b.machine with program := b.machine.program ++ [encode c.command] }
                lines := c.script
                rest := more })
      | .waitHs => some (.seq, { b with polls := b.polls + 1 })
      | .waitRearm =>
        if b.polledHere then some (.timer, { b with polledHere := false })
        else some (.seq, { b with rearms := b.rearms + 1, polledHere := true })
      | .arm => some (.seq, b)
      | _ => some (.timer, b)

/-- The outcome of `k` bench steps from `b`: the machine at the end of the script or after the last step, or the fault
or refusal that stopped it. -/
def Bench.run : Nat → Bench → Host.Outcome State Fault Refusal
  | 0, b => .next b.machine
  | k + 1, b =>
    match b.choose with
    | none => .next b.machine
    | some (m, b') =>
      match step (b'.machine.withMove m) with
      | .next t => Bench.run k { b' with machine := t }
      | .fault f => .fault f
      | .refused r => .refused r

/-- A bench at the start of a list of scripted commands. -/
def Bench.start (s : State) (commands : List ScriptedCommand) : Bench where
  machine := s
  lines := []
  polls := 0
  rearms := 0
  polledHere := false
  rest := commands

end Sys2Proof.Machine
end

