-- ==== Sys2Proof/Tests/Slice0.lean ====
section
/-! SUPPORT. Small tests against the vectors of 95_test_vectors.md, and for each statement with hypotheses a witness
that meets them. Expected values come from the spec, by hand; each test is about one step of a small state. -/

namespace Sys2Proof.Tests

open Sys2Proof.Machine

/-! ### Helpers -/

/-- The next state an outcome gives. -/
def nextOf : Host.Outcome State Fault Refusal → Option State
  | .next s => some s
  | _ => none

/-- The fault an outcome gives. -/
def faultIn : Host.Outcome State Fault Refusal → Option Fault
  | .fault f => some f
  | _ => none

/-- The refusal an outcome gives. -/
def refusalIn : Host.Outcome State Fault Refusal → Option Refusal
  | .refused r => some r
  | _ => none

/-- A next state exists and has the property. -/
def nextHas (p : State → Bool) (o : Host.Outcome State Fault Refusal) : Bool :=
  (nextOf o).any p

/-- The block in sequencer state `q` at count `n`, sending 0xB4 in command mode at 16 MHz, its lines as R135 and R140
have them; the host has released the line and there is no abort. -/
def atState (q : SeqState) (n : Int) : State :=
  { State.reset with
    seqState := q
    tmrRun := timed q
    cnt := n
    data := 0xB4
    mode := .commandMode
    wrDir := match q with | .slot1 | .slot2 | .slot3 | .release => true | _ => false
    senseOut := match q with | .slot0 | .slot1 | .slot2 => true | _ => false
    wrLatch := match q with | .slot2 | .slot3 => false | _ => true }

/-- The reset configuration at another clock, with the offset R106 gives it. -/
def clocked (hz : Nat) : Config :=
  let c := { Config.reference with clkHz := hz }
  { c with offsetTicks := defaultOffset c }

/-! ### Decoding: words written out bit by bit from 95_test_vectors.md 2.1 -/

theorem test_decode_txl_B4 : decodeBits 0b010110100 = .ok (.txl 0xB4) := by decide
theorem test_decode_txl_FF : decodeBits 0b011111111 = .ok (.txl 0xFF) := by decide
theorem test_decode_txc_5A : decodeBits 0b101011010 = .ok (.txc 0x5A) := by decide
theorem test_decode_txc_0C : decodeBits 0b100001100 = .ok (.txc 0x0C) := by decide

/-- R73, R74: the last word is a command, the next number is none. -/
theorem test_decode_boundary :
    decodeBits 0x1FF = .ok (.txc 0xFF) ∧ decodeBits 0x200 = .error (.notNineBits 0x200) := by decide

/-- R80: `0x000 | imm8` and `0x100 | imm8`. -/
theorem test_encode : encode (.txl 0xB4) = 0x0B4 ∧ encode (.txc 0x5A) = 0x15A := by decide

theorem test_decodeTableWord : decodeTableWord 9 0x10C = some (.txc 0x0C) ∧
    decodeTableWord 16 0x0FF = some (.txl 0xFF) ∧ decodeTableWord 16 0x200 = none := by decide

/-! ### Well-formedness and assembly -/

/-- R80: "an unsigned integer from 0 to 255". -/
theorem test_wellFormed_operand : operandInRange 255 = true ∧ operandInRange 256 = false := by decide

theorem test_wellFormed_instr : (Instr.txl 0xFF).wellFormed = true ∧ (Instr.txc 0x00).wellFormed = true := by decide

theorem test_assemble : assemble "TXL 0xB4".toList = .ok (.txl 0xB4) ∧
    assemble "TXC 90".toList = .ok (.txc 0x5A) ∧
    assemble "TXL 0b10110100".toList = .ok (.txl 0xB4) := by decide

theorem test_assemble_errors : assemble "TXL 256".toList = .error (.outOfRange 256) ∧
    assemble "TXC 0b12".toList = .error .notANumber ∧
    assemble "TX 1".toList = .error .unknownMnemonic := by decide

/-! ### Configurations (R5, R78, R110) -/

/-- T1, T2, T3. -/
theorem test_offsets : (clocked 8000000).offsetTicks = 0 ∧ (clocked 16000000).offsetTicks = -1 ∧
    (clocked 20000000).offsetTicks = -1 := by decide

theorem test_thresholds_16MHz :
    (List.finRange 6).map (threshold Config.reference) = [8, 26, 44, 62, 82, 106] := by decide

theorem test_thresholds_20MHz :
    (List.finRange 6).map (threshold (clocked 20000000)) = [10, 33, 55, 78, 103, 133] := by decide

/-- T4: 4 MHz breaks R5; 8 MHz is the boundary. -/
theorem test_admitted_clock : admitted (clocked 4000000) = false ∧ admitted (clocked 8000000) = true := by decide

theorem test_admitted_prescale : admitted { Config.reference with prescale := 0 } = false := by decide

/-- U13: `d_0 = 0`, and deadlines that do not increase. -/
theorem test_admitted_deadlines :
    admitted { Config.reference with deadlineUs := #v[0, 13, 22, 31, 41, 53] } = false ∧
      admitted { Config.reference with deadlineUs := #v[4, 13, 22, 31, 31, 53] } = false := by decide

/-- T9, T10: 8 bits hold 106, not 133. -/
theorem test_admitted_width : admitted { Config.reference with cntWidth := 8 } = true ∧
    admitted { clocked 20000000 with cntWidth := 8 } = false ∧
    admitted { Config.reference with cntWidth := 8, latMax := 22 } = false := by decide

/-- R110: the offset must fit. -/
theorem test_admitted_offset :
    admitted { Config.reference with cntWidth := 8, offsetTicks := -128 } = true ∧
      admitted { Config.reference with cntWidth := 8, offsetTicks := -129 } = false := by decide

/-- T8: raw bits 0xFFFF in 16 bits read -1. -/
theorem test_signed_reading : signedValue 16 0xFFFF = -1 ∧ signedValue 16 0x7FFF = 32767 := by decide

/-- R212: T_5 - OFFSET_TICKS at 16 MHz. -/
theorem test_frame_ticks : frameTicks Config.reference = 107 := by decide

/-! ### Wire encoding -/

/-- S1 as corrected: 0xB4 gives (1,1), (1,0), (0,0), (0,1). -/
theorem test_pairs_B4 : (List.finRange 4).map (fun k => (pairSense 0xB4 k, pairWrite 0xB4 k)) =
    [(true, true), (true, false), (false, false), (false, true)] := by decide

/-- 2.3: 0x04 is on write in slot 3, 0x80 on sense in slot 1. -/
theorem test_pairs_single_bits : pairWrite 0x04 3 = true ∧ pairSense 0x80 1 = true ∧
    pairWrite 0x40 1 = true ∧ pairSense 0x20 0 = true := by decide

/-- Program 1's receiver: s = (1,1,0,0), w = (1,0,0,1). -/
theorem test_receive_B4 : receive true true true false false false false true = 0xB4 := by decide

theorem test_polarity : armPol .loader = false ∧ termPol .loader = true ∧
    armPol .commandMode = true ∧ termPol .commandMode = false := by decide

/-- R29: the codes, and back. -/
theorem test_state_codes : seqCode .waitRearm = 9 ∧ seqCode (.unused 5) = 15 ∧
    ∀ code, seqCode (seqOfCode code) = code := by decide

/-! ### The two commands and the fetch -/

/-- Program 1, step 1. -/
theorem test_txl_accepts : nextHas (fun t => decide (t.mode = .loader ∧ t.data = 0xB4 ∧ t.gie = false ∧
    t.cnt = -1 ∧ t.outcome = .none ∧ t.seqState = .waitHs))
    (exec (.txl 0xB4) { State.reset with gie := true }) = true := by decide

/-- Program 3, step 3: the outcome of the command before is cleared, the lines stay. -/
theorem test_txc_accepts : nextHas (fun t => decide (t.mode = .commandMode ∧ t.data = 0x0C ∧
    t.outcome = .none ∧ t.seqState = .waitHs ∧ t.senseOut = true ∧ t.wrDir = false ∧ t.wrLatch = true))
    (exec (.txc 0x0C) { State.reset with outcome := .aborted, senseOut := true }) = true := by decide

/-- Q9: not accepted in SLOT2. -/
theorem test_txl_busy : nextOf (exec (.txl 0x55) (atState .slot2 30)) = some (atState .slot2 30) := by decide

/-- Q8: STATE = 12. -/
theorem test_txc_badState : faultIn (exec (.txc 0x55) (atState (.unused 2) 0)) = some .badState := by decide

theorem test_fetched_txl : nextOf (step (State.reset.withFetchWord 16 0x0B4)) =
    nextOf (exec (.txl 0xB4) State.reset) := by decide

theorem test_fetched_txc : nextOf (step (State.reset.withFetchWord 16 0x10C)) =
    nextOf (exec (.txc 0x0C) State.reset) := by decide

/-! ### The agents -/

/-- Program 1, steps 2 and 3 (in command mode: ARM drives 1). -/
theorem test_poll_and_arm :
    nextHas (fun t => decide (t.seqState = .arm)) (step ((atState .waitHs (-1)).withMove .seq)) = true ∧
      nextHas (fun t => decide (t.seqState = .slot0) && t.senseOut && t.tmrRun)
        (step ((atState .arm (-1)).withMove .seq)) = true := by decide

/-- Q1: abort wins over a high line; nothing is written to a line, GIE becomes 1. -/
theorem test_abort_wins : nextHas (fun t => decide (t.seqState = .idle ∧ t.outcome = .aborted) && t.gie &&
    !t.wrDir && t.wrLatch && !t.senseOut && !t.tmrRun)
    (step ({ atState .waitHs (-1) with motor := true }.withMove .seq)) = true := by decide

/-- T5, T6: at 7 SEQ is held and TIMER ticks; at 8 TIMER is held and the action drives (1,1). -/
theorem test_slot0_at_7 : (atState .slot0 7).reached 0 = false ∧
    nextHas (fun t => decide (t.cnt = 8)) (step ((atState .slot0 7).withMove .timer)) = true := by decide

theorem test_slot0_at_8 : (atState .slot0 8).tickAllowed = false ∧
    nextHas (fun t => t.wrDir && t.senseOut && t.wrLatch && decide (t.seqState = .slot1))
      (step ((atState .slot0 8).withMove .seq)) = true := by decide

/-- T7: with LAT_MAX = 2 the timer may step at 9 and not at 10. -/
theorem test_latency :
    let s := fun n => { atState .slot0 n with cfg := { Config.reference with latMax := 2 } }
    (s 9).tickAllowed = true ∧ (s 10).tickAllowed = false ∧ (s 10).reached 0 = true := by decide

/-- Q6: the host pulls low in a bit-slot. -/
theorem test_contention : faultIn (step ((atState .slot1 30).withMove (.host true))) = some .busContention := by decide

/-- Q7: after the RELEASE action no fault, and the line is low. -/
theorem test_release_then_pull :
    nextHas (fun t => decide (t.wrLevel = .level false)) (step ((atState .settle 82).withMove (.host true))) = true := by
  decide

/-- Q3: abort at the re-arm poll finishes with SENT, and sense at the terminal polarity of command mode. -/
theorem test_finish_on_abort : nextHas (fun t => !t.senseOut && decide (t.outcome = .sent ∧ t.seqState = .idle) && t.gie)
    (step ({ atState .waitRearm 107 with motor := true, senseOut := true }.withMove .seq)) = true := by decide

/-- R81: a scripted change becomes due at its event. -/
theorem test_script_due : (Bench.start (atState .settle 90) []).due (.cnt 90) = true ∧
    (Bench.start (atState .waitHs (-1)) []).due (.poll 1) = true ∧
    (Bench.start State.reset []).due .accept = false := by decide

/-! ### Witnesses: a state and operands that meet the hypotheses of each statement -/

/-- The last TXL word, the first and last TXC words, and the first number that is no word. -/
theorem witness_EveryNineBitWordIsACommand :
    (255 : Nat) < 256 ∧ (256 : Nat) ≤ 256 ∧ (511 : Nat) < 512 ∧ (512 : Nat) ≤ 512 := by decide

/-- The slowest clock of R5. -/
theorem witness_ThresholdIsTheLeastTickCount : clockAdmitted (clocked 8000000) = true := by decide

theorem witness_ReachedIsElapsedMicroseconds :
    clockAdmitted (atState .slot0 8).cfg = true ∧ (atState .slot0 8).reached 0 = true ∧ (atState .slot0 7).reached 0 = false := by
  decide

theorem witness_OffsetIsHalfAMicrosecondRoundedToZero :
    clockAdmitted (clocked 8000000) = true ∧ clockAdmitted (clocked 16000000) = true := by decide

theorem witness_ElapsedIsTheSignedReading : 0 < ({ Config.reference with cntWidth := 1 } : Config).cntWidth := by decide

theorem witness_ResetEventSetsTheResetTable : (atState .slot2 30).running = true := by decide

theorem witness_TxlIsAccepted :
    State.reset.running = true ∧ State.reset.seqState = .idle ∧
      State.reset.cfg.offsetTicks < 2 ^ (State.reset.cfg.cntWidth - 1) := by decide

/-- The largest offset that fits an 8-bit counter. -/
theorem witness_TxcIsAccepted :
    let s := { State.reset with cfg := { Config.reference with cntWidth := 8, offsetTicks := 127 } }
    s.running = true ∧ s.seqState = .idle ∧ s.cfg.offsetTicks < 2 ^ (s.cfg.cntWidth - 1) := by decide

theorem witness_BusyBlockTakesNoCommand :
    (atState .waitHs (-1)).running = true ∧ (atState .waitHs (-1)).seqState ≠ .idle ∧
      (atState .waitRearm 200).running = true ∧ (atState .waitRearm 200).seqState ≠ .idle := by decide

theorem witness_TxlAndTxcWriteNoLine :
    (nextOf (exec (.txl 0x55) (atState .slot2 30))).isSome = true ∧ (atState .slot2 30).seqState ≠ .idle ∧
      (nextOf (exec (.txc 0x55) State.reset)).isSome = true ∧ State.reset.seqState = .idle := by decide

theorem witness_TxlAndTxcStopOnlyOnARecordedFault :
    admitted (clocked 4000000) = false ∧ admitted Config.reference = true ∧
      (let s := { atState .slot1 10 with hostPull := true }
       admitted s.cfg = true ∧ s.wrDir = true ∧ s.hostPull = true) ∧
      (let s := atState (.unused 0) 0
       admitted s.cfg = true ∧ ¬(s.wrDir = true ∧ s.hostPull = true) ∧ s.seqState = .unused 0) ∧
      (let s := { atState .slot0 8 with hostPull := true }
       admitted s.cfg = true ∧ ¬(s.wrDir = true ∧ s.hostPull = true) ∧ ∀ o, s.seqState ≠ .unused o) := by decide

theorem witness_StepPerformsTheNextMove : State.reset.schedule = [] := by decide

theorem witness_StepRunsTheDecodedCommand :
    let s := { State.reset with presenting := true, program := [0x1FF] }
    s.seqState = .idle ∧ s.presenting = true ∧ s.program = 0x1FF :: [] := by decide

/-- Presenting with no program left, and a program with nothing presented. -/
theorem witness_IdleBlockWaitsForACommand :
    (let s := { State.reset with presenting := true }
     s.running = true ∧ s.seqState = .idle ∧ s.cmdValid = false) ∧
      (let s := { State.reset with program := [0x000] }
       s.running = true ∧ s.seqState = .idle ∧ s.cmdValid = false) := by decide

theorem witness_AcceptanceLatchesTheWord :
    let s := { State.reset with presenting := true, program := [0x1FF] }
    s.running = true ∧ s.seqState = .idle ∧ s.presenting = true ∧ s.program = 0x1FF :: [] ∧
      s.cfg.offsetTicks < 2 ^ (s.cfg.cntWidth - 1) := by decide

/-- The three clauses: abort with a high line, a high line, a low line. -/
theorem witness_HandshakePoll :
    (let s := { atState .waitHs (-1) with motor := true }
     s.running = true ∧ s.seqState = .waitHs ∧ s.wrLevel = .level true ∧ s.abort = true) ∧
      (let s := atState .waitHs (-1)
       s.running = true ∧ s.seqState = .waitHs ∧ s.wrLevel = .level true ∧ s.abort = false) ∧
      (let s := { atState .waitHs (-1) with hostPull := true }
       s.running = true ∧ s.seqState = .waitHs ∧ s.wrLevel = .level false ∧ s.abort = false) := by decide

/-- The free level is not known, by design: of the two clauses it decides, the one for its value is met by the third state,
and the last clause is met by the fourth state whatever the level. -/
theorem witness_FloatingPollsDrawTheirLevel :
    (let s := { atState .waitHs (-1) with wrLatch := false }
     s.running = true ∧ s.wrLevel = .floating ∧ s.abort = false ∧ s.seqState = .waitHs) ∧
      (let s := { atState .waitHs (-1) with wrLatch := false, motor := true }
       s.running = true ∧ s.wrLevel = .floating ∧ s.abort = true ∧ s.seqState = .waitHs) ∧
      (let s := { atState .waitRearm 107 with wrLatch := false }
       s.running = true ∧ s.wrLevel = .floating ∧ s.abort = false ∧ s.seqState = .waitRearm) ∧
      (let s := { atState .waitRearm 107 with wrLatch := false, motor := true }
       s.running = true ∧ s.wrLevel = .floating ∧ s.abort = true ∧ s.seqState = .waitRearm) := by decide

/-- The six rows of R52. -/
theorem witness_WriteLineLevelTable :
    let l := fun (d v p : Bool) => { State.reset with wrDir := d, wrLatch := v, hostPull := p }.wrLevel
    l false true false = .level true ∧ l false true true = .level false ∧ l false false true = .level false ∧
      l false false false = .floating ∧ l true false false = .level false ∧ l true true true = .contention := by decide

theorem witness_ArmAction : (atState .arm (-1)).running = true ∧ (atState .arm (-1)).seqState = .arm := by decide

theorem witness_Slot0Action :
    (let s := atState .slot0 8
     s.running = true ∧ s.seqState = .slot0 ∧ s.reached 0 = true ∧ s.hostPull = false) ∧
      (let s := { atState .slot0 8 with hostPull := true }
       s.running = true ∧ s.seqState = .slot0 ∧ s.reached 0 = true ∧ s.hostPull = true) := by decide

theorem witness_Slot1Action :
    (atState .slot1 26).running = true ∧ (atState .slot1 26).seqState = .slot1 ∧ (atState .slot1 26).reached 1 = true := by decide
theorem witness_Slot2Action :
    (atState .slot2 44).running = true ∧ (atState .slot2 44).seqState = .slot2 ∧ (atState .slot2 44).reached 2 = true := by decide
theorem witness_Slot3Action :
    (atState .slot3 62).running = true ∧ (atState .slot3 62).seqState = .slot3 ∧ (atState .slot3 62).reached 3 = true := by decide
theorem witness_ReleaseAction :
    (atState .release 82).running = true ∧ (atState .release 82).seqState = .release ∧
      (atState .release 82).reached 4 = true := by decide
theorem witness_SettleAction :
    (atState .settle 106).running = true ∧ (atState .settle 106).seqState = .settle ∧ (atState .settle 106).reached 5 = true := by
  decide

/-- Each deadline state one tick before its threshold, and at it. -/
theorem witness_DeadlineStateHoldsUntilReached :
    ∀ x ∈ [(SeqState.slot0, (0 : Fin 6), (8 : Int)), (.slot1, 1, 26), (.slot2, 2, 44), (.slot3, 3, 62),
        (.release, 4, 82), (.settle, 5, 106)],
      (let s := atState x.1 (x.2.2 - 1)
       s.running = true ∧ s.seqState = x.1 ∧ s.elapsed < (threshold s.cfg x.2.1 : Int)) ∧
      (let s := atState x.1 x.2.2
       s.running = true ∧ s.seqState = x.1 ∧ (threshold s.cfg x.2.1 : Int) ≤ s.elapsed ∧ s.hostPull = false) := by
  decide

/-- The clauses: a low line, abort with a high line, and neither. -/
theorem witness_RearmPollAndFinish :
    (let s := { atState .waitRearm 106 with hostPull := true }
     s.running = true ∧ s.seqState = .waitRearm ∧ s.wrLevel = .level false) ∧
      (let s := { atState .waitRearm 106 with motor := true }
       s.running = true ∧ s.seqState = .waitRearm ∧ s.wrLevel = .level true ∧ s.abort = true) ∧
      (let s := atState .waitRearm 106
       s.running = true ∧ s.seqState = .waitRearm ∧ s.wrLevel = .level true ∧ s.abort = false) := by decide

/-- No action due; a due action with latency left; a stopped timer. -/
theorem witness_TimerTick :
    (let s := atState .slot0 7
     s.running = true ∧ s.tmrRun = true ∧ s.reached 0 = false ∧ -(2 ^ (s.cfg.cntWidth - 1) : Int) ≤ s.cnt ∧
       s.cnt + 1 < 2 ^ (s.cfg.cntWidth - 1)) ∧
      (let s := { atState .slot0 9 with cfg := { Config.reference with latMax := 2 } }
       s.running = true ∧ s.tmrRun = true ∧ s.reached 0 = true ∧
         ∀ k, deadlineOf s.seqState = some k → s.reached k = true →
           s.elapsed < (threshold s.cfg k : Int) + s.cfg.latMax) ∧
      (let s := atState .waitHs (-1)
       s.running = true ∧ s.tmrRun = false) := by decide

/-- The two clauses, at the boundary count. -/
theorem witness_DueActionHoldsTheTimer :
    (let s := atState .slot0 8
     s.running = true ∧ s.tmrRun = true ∧ deadlineOf s.seqState = some 0 ∧ s.reached 0 = true ∧ s.cfg.latMax = 0) ∧
      (let s := { atState .settle 108 with cfg := { Config.reference with latMax := 2 } }
       s.running = true ∧ s.tmrRun = true ∧ deadlineOf s.seqState = some 5 ∧ s.reached 5 = true ∧
         (threshold s.cfg 5 : Int) + s.cfg.latMax ≤ s.elapsed) := by decide

theorem witness_HostMove :
    ((atState .settle 82).running = true ∧ (atState .settle 82).wrDir = false) ∧
      ((atState .release 82).running = true ∧ (atState .release 82).wrDir = true) := by decide

theorem witness_MotorCallerAndSystemMoves :
    (let s := { State.reset with program := [0x0B4] }
     s.running = true ∧ s.program ≠ [] ∧ s.presenting = false ∧ s.seqState = .idle) ∧
      (let s := { atState .slot0 0 with program := [0x0B4], presenting := true }
       s.running = true ∧ s.presenting = true ∧ s.seqState ≠ .idle) := by decide

theorem witness_ContentionStopsEveryAgent :
    let s := { atState .slot1 26 with hostPull := true }
    admitted s.cfg = true ∧ s.wrDir = true ∧ s.hostPull = true ∧ s.frameLevels = true ∧ s.badCode = false := by decide

/-- The codes 10 and 15; and a step that answers a next state. -/
theorem witness_UnusedCodeStopsEveryAgent :
    (∀ o ∈ [(0 : Fin 6), 5], admitted (atState (.unused o) 0).cfg = true ∧
      ¬((atState (.unused o) 0).wrDir = true ∧ (atState (.unused o) 0).hostPull = true) ∧
      (atState (.unused o) 0).seqState = .unused o) ∧
      (nextOf (step ((atState .release 82).withMove .seq))).isSome = true := by decide

/-- One configuration a clause. -/
theorem witness_InadmissibleConfigurationIsRefused :
    (clocked 7999999).clkHz < (clocked 7999999).prescale * 1000000 ∧
      (#v[0, 13, 22, 31, 41, 53] : Vector Nat 6)[0] = 0 ∧
      (#v[4, 13, 22, 31, 31, 53] : Vector Nat 6)[(3 : Fin 5).succ] ≤
        (#v[4, 13, 22, 31, 31, 53] : Vector Nat 6)[(3 : Fin 5).castSucc] ∧
      (-129 : Int) < -(2 ^ (8 - 1) : Int) ∧
      2 ^ (8 - 1) ≤ threshold { Config.reference with cntWidth := 8, latMax := 22 } 5 + 22 := by decide

theorem test_refused_by_step :
    refusalIn (step ({ State.reset with cfg := clocked 7999999 }.withMove .timer)) = some .badConfig := by decide

/-- Both causes of a fault. -/
theorem witness_OnlyTheHostCausesAFault :
    (let s := { atState .slot0 8 with hostPull := true }.withMove .seq
     s.running = true ∧ faultIn (step s) = some .busContention) ∧
      (let s := (atState .slot3 50).withMove (.host true)
       s.running = true ∧ faultIn (step s) = some .busContention) := by decide

/-- A step that answers a next state, and the six invariants before it: for `StepKeepsRunning` and the statements
`EveryStepKeeps...`, in a command and between commands. -/
theorem witness_EveryStepKeeps :
    (let s := (atState .slot1 26).withMove .seq
     (nextOf (step s)).isSome = true ∧ s.lineParked = true ∧ s.timerMatches = true ∧ s.guardHolds = true ∧
       s.frameLevels = true ∧ s.countKept = true) ∧
      (let s := ({ State.reset with program := [0x0B4], presenting := true }).withMove .seq
       (nextOf (step s)).isSome = true ∧ s.lineParked = true ∧ s.timerMatches = true ∧ s.guardHolds = true ∧
         s.frameLevels = true ∧ s.countKept = true) := by decide

/-- The clauses about SLOT0 and RELEASE. -/
theorem witness_EveryStepKeepsTheLineParked :
    (let s := (atState .slot0 8).withMove .seq
     s.frameLevels = true ∧ s.nextMove.1 ≠ .reset ∧ s.writeReleased = true ∧
       nextHas (fun t => !t.writeReleased) (step s) = true) ∧
      (let s := (atState .release 82).withMove .seq
       s.frameLevels = true ∧ s.nextMove.1 ≠ .reset ∧ s.writeReleased = false ∧
         nextHas (fun t => t.writeReleased) (step s) = true) := by decide

theorem witness_DeadlineActionsHappenOnTime :
    let s := (atState .release 82).withMove .seq
    nextHas (fun t => decide (t.seqState ≠ s.seqState)) (step s) = true ∧ s.timerMatches = true ∧
      s.countKept = true ∧ deadlineOf s.seqState = some 4 ∧ s.nextMove.1 ≠ .reset ∧ s.cfg.latMax = 0 := by decide

theorem witness_OnlyTheGraphsArrowsAreTaken :
    let s := (atState .arm (-1)).withMove .seq
    nextHas (fun t => decide (t.seqState ≠ s.seqState)) (step s) = true ∧ s.nextMove.1 ≠ .reset := by decide

/-- SLOT0 turns the line to output, RELEASE back. -/
theorem witness_OnlySlot0AndReleaseTurnTheLine :
    (let s := (atState .slot0 8).withMove .seq
     nextHas (fun t => t.wrDir != s.wrDir) (step s) = true ∧ s.nextMove.1 ≠ .reset) ∧
      (let s := (atState .release 82).withMove .seq
       nextHas (fun t => t.wrDir != s.wrDir) (step s) = true ∧ s.nextMove.1 ≠ .reset) := by decide

theorem witness_OnlyArmSlotsAndFinishWriteSense :
    let s := (atState .slot2 44).withMove .seq
    nextHas (fun t => t.senseOut != s.senseOut) (step s) = true ∧ s.nextMove.1 ≠ .reset := by decide

/-- The three clauses: acceptance, an exit, the system. -/
theorem witness_OnlyAcceptanceExitsAndTheSystemWriteGie :
    (let s := ({ State.reset with gie := true, program := [0x0B4], presenting := true }).withMove .seq
     nextHas (fun t => t.gie != s.gie) (step s) = true ∧ s.nextMove.1 ≠ .reset) ∧
      (let s := ({ atState .waitHs (-1) with motor := true }).withMove .seq
       nextHas (fun t => t.gie != s.gie) (step s) = true ∧ s.nextMove.1 ≠ .reset) ∧
      (let s := State.reset.withMove (.system true)
       nextHas (fun t => t.gie != s.gie) (step s) = true ∧ s.nextMove.1 ≠ .reset) := by decide

theorem witness_OnlyAcceptanceWritesDataAndMode :
    let s := ({ State.reset with program := [0x10C], presenting := true }).withMove .seq
    nextHas (fun t => decide (t.data ≠ s.data ∨ t.mode ≠ s.mode)) (step s) = true ∧ s.nextMove.1 ≠ .reset := by decide

theorem witness_BusyBlockIgnoresTheCommandPort :
    let s := (atState .slot0 8).withMove .seq
    s.busy = true ∧ s.nextMove.1 ≠ .caller := by decide

/-- A Loader and a CommandMode block in SLOT0, whose sense levels differ; and a pair in WAIT_HS and one in ARM whose levels
agree, with a next state each. -/
theorem witness_ModesTakeTheSameSteps :
    modeTwins (atState .slot0 8) { atState .slot0 8 with mode := .loader, senseOut := false } ∧
      (let a := (atState .waitHs (-1)).withMove .seq
       let b := { a with mode := .loader }
       modeTwins a b ∧ (nextOf (step a)).isSome = true ∧ (nextOf (step b)).isSome = true ∧
         a.seqState ∈ [SeqState.idle, .waitHs, .arm] ∧ b.senseOut = a.senseOut) ∧
      (let a := (atState .arm (-1)).withMove .seq
       let b := { a with mode := .loader }
       modeTwins a b ∧ (nextOf (step a)).isSome = true ∧ (nextOf (step b)).isSome = true ∧
         a.seqState ∈ [SeqState.idle, .waitHs, .arm] ∧ b.senseOut = a.senseOut) := by
  refine ⟨⟨rfl, by decide⟩, ⟨⟨rfl, by decide⟩, by decide⟩, ⟨⟨rfl, by decide⟩, by decide⟩⟩

theorem witness_WaitsHaveNoTimeout :
    (let s := { atState .waitHs (-1) with hostPull := true }
     s.running = true ∧ s.abort = false ∧ s.seqState = .waitHs ∧ s.wrLevel = .level false) ∧
      (let s := atState .waitRearm 106
       s.running = true ∧ s.abort = false ∧ s.seqState = .waitRearm ∧ s.wrLevel = .level true) := by decide

/-- From the offset, and at the threshold itself. -/
theorem witness_TicksReachTheDeadline :
    (let s := atState .slot0 (-1)
     s.running = true ∧ s.tmrRun = true ∧ deadlineOf s.seqState = some 0 ∧ s.elapsed = s.cnt ∧
       s.cnt ≤ threshold s.cfg 0) ∧
      (let s := atState .settle 106
       s.running = true ∧ s.tmrRun = true ∧ deadlineOf s.seqState = some 5 ∧ s.elapsed = s.cnt ∧
         s.cnt ≤ threshold s.cfg 5) := by decide

theorem witness_AbortedCommandWritesNoLine :
    let s := { State.reset with motor := true, program := [0x000], presenting := true }
    s.running = true ∧ s.seqState = .idle ∧ s.lineParked = true ∧ s.abort = true ∧ s.program = 0x000 :: [] ∧
      s.presenting = true := by decide

/-- Also for `CommandSendsItsByteAndReturnsToIdle`. -/
theorem witness_FrameLeavesTheTraceOfItsByte :
    let s := { State.reset with program := [0x0B4], presenting := true }
    s.readyForFrame = true ∧ s.program = 0x0B4 :: [] ∧ s.presenting = true := by decide

theorem witness_CommandSendsItsByteAndReturnsToIdle :
    let s := { State.reset with program := [0x15A, 0x000], presenting := true, cfg := clocked 8000000 }
    s.readyForFrame = true ∧ s.program = 0x15A :: [0x000] ∧ s.presenting = true := by decide

/-- The SETTLE action alone; and the shortest frame R5 and R78 allow, deadlines 1 to 6 µs at one tick a µs. -/
theorem witness_FrameTakesItsTicks :
    (let s := (atState .settle 106).withMove .seq
     s.timerMatches = true ∧ s.countKept = true ∧ settlesIn 1 s = true ∧ (deadlineOf s.seqState).isSome = true) ∧
      (let c := { clocked 8000000 with deadlineUs := #v[1, 2, 3, 4, 5, 6] }
       let s := { atState .arm 0 with cfg := c, schedule := .seq :: (List.replicate 6 [.timer, .seq]).flatten }
       s.timerMatches = true ∧ s.countKept = true ∧ settlesIn 13 s = true ∧ s.seqState = .arm ∧
         s.cfg.latMax = 0) := by decide

end Sys2Proof.Tests
end

/-! ## Scope: admitted configurations and the schedule (00_scope.md) -/

namespace Sys2Proof.Machine

/-! ### What an admitted configuration satisfies -/

theorem clockAdmitted_iff (c : Config) :
    clockAdmitted c = true ↔ 0 < c.prescale ∧ c.prescale * 1000000 ≤ c.clkHz := by
  simp only [clockAdmitted, Bool.and_eq_true, decide_eq_true_eq]
  rfl

theorem deadlinesAdmitted_iff (c : Config) :
    deadlinesAdmitted c = true ↔
      0 < c.deadlineUs[0] ∧ ∀ k : Fin 5, c.deadlineUs[k.castSucc] < c.deadlineUs[k.succ] := by
  simp [deadlinesAdmitted, Fin.forall_fin_succ, and_assoc]

theorem widthAdmitted_iff (c : Config) :
    widthAdmitted c = true ↔
      0 < c.cntWidth ∧ -(2 ^ (c.cntWidth - 1) : Int) ≤ c.offsetTicks ∧
        threshold c 5 + c.latMax < 2 ^ (c.cntWidth - 1) := by
  simp [widthAdmitted, and_assoc]

/-! ### What every step says of the configuration -/

/-- A step is refused exactly where the configuration is not admitted. -/
theorem step_eq_refused_iff (s : State) (r : Refusal) :
    step s = .refused r ↔ admitted s.cfg = false ∧ r = .badConfig := by
  rw [step_eq_checked, checked_eq_refused_iff, nextMove_frame]

/-- No move writes the configuration (R8). -/
theorem Effect.cfg_eq {s t : State} {m : Move} (h : Effect s m t) : t.cfg = s.cfg := by
  cases h <;> rfl

theorem step_cfg_eq {s t : State} (h : step s = .next t) : t.cfg = s.cfg := by
  obtain ⟨u, hu, -, -, he⟩ := step_effect h
  rw [he.cfg_eq, hu]

/-! ### The obligations -/

/-- Settles O39: each broken constraint contradicts the part of `admitted` that states it. -/
theorem inadmissibleConfigurationIsRefused : Obligations.InadmissibleConfigurationIsRefused := by
  intro s hbroken
  refine (step_eq_refused_iff s _).2 ⟨Bool.eq_false_iff.2 fun ha => ?_, rfl⟩
  obtain ⟨hclock, hdeadlines, hwidth⟩ := (admitted_iff _).1 ha
  obtain ⟨-, hclk⟩ := (clockAdmitted_iff _).1 hclock
  obtain ⟨hfirst, hincr⟩ := (deadlinesAdmitted_iff _).1 hdeadlines
  obtain ⟨-, hoffset, htop⟩ := (widthAdmitted_iff _).1 hwidth
  rcases hbroken with h | h | ⟨k, h⟩ | h | h
  · exact absurd hclk h.not_ge
  · exact hfirst.ne' h
  · exact absurd (hincr k) h.not_gt
  · exact absurd hoffset h.not_ge
  · exact absurd htop h.not_gt

/-- Settles O41: an answer records no fault, and no move writes the configuration. -/
theorem stepKeepsRunning : Obligations.StepKeepsRunning := by
  intro s t h
  obtain ⟨hrun, hfault, -⟩ := (step_eq_next_iff s t).1 h
  have hcfg : t.cfg = s.cfg := step_cfg_eq h
  have hadm : admitted t.cfg = true := hcfg ▸ ((running_iff s).1 hrun).1
  exact ⟨hrun, (running_iff t).2 ⟨hadm, hfault⟩, hcfg⟩

/-- Settles O17: a scheduled move is taken off the schedule before it is performed; with nothing scheduled,
`nextMove` draws. -/
theorem stepPerformsTheNextMove : Obligations.StepPerformsTheNextMove := by
  intro s
  refine ⟨fun m => ?_, fun hempty => ?_⟩
  · rw [step_withMove, perform_eq_checked]
  · have hnext : s.nextMove = (Config.freeMove s.draws, { s with draws := s.draws + 1 }) := by
      simp only [State.nextMove, hempty]
    rw [step, hnext]

end Sys2Proof.Machine

/-! ## The registers and who writes them (10_state.md) -/

namespace Sys2Proof.Machine

variable {s t : State} {m : Move}

/-! ### From a step to its effect -/

/-- `step_effect` with the schedule and the draws as the only fields in which the performed state differs from `s`, so
that what it says of any other field is said of `s`. -/
theorem step_effect_frame (h : step s = .next t) :
    ∃ sch n, Effect { s with schedule := sch, draws := n } s.nextMove.1 t := by
  obtain ⟨u, hu, -, -, he⟩ := step_effect h
  rw [hu] at he
  exact ⟨_, _, he⟩

/-- A scheduled move's step, from the state the move leads to. -/
theorem step_withMove_eq_of_after (hr : s.running = true) (ha : after m s = t) (hf : t.faultOf = none) :
    step (s.withMove m) = .next t := by
  subst ha
  exact step_withMove_eq_next hr hf

theorem faultOf_of_running (hr : s.running = true) : s.faultOf = none :=
  ((running_iff s).1 hr).2

/-! ### The CALLER and the system -/

theorem callerStep_of_ne_nil (h : s.program ≠ []) : s.callerStep = { s with presenting := true } := by
  simp [State.callerStep, h]

/-- The CALLER has no step with no program left, nor while a word waits (R162). -/
theorem callerStep_held (h : s.program = [] ∨ s.presenting = true) : s.callerStep = s := by
  unfold State.callerStep
  split <;> rename_i hp
  · rfl
  · have hwaits : s.presenting = true := h.resolve_left (by simpa using hp)
    rw [← hwaits]

theorem systemStep_idle (h : s.seqState = .idle) (b : Bool) : s.systemStep b = { s with gie := b } := by
  simp [State.systemStep, State.busy, h]

theorem systemStep_busy (h : s.seqState ≠ .idle) (b : Bool) : s.systemStep b = s := by
  simp [State.systemStep, State.busy, h]

/-! ### The writers of each register

One case per effect of a move that writes the register; every other effect leaves it. -/

/-- The writers of `WR_DIR` (R24). -/
theorem Effect.wrDir_writers (h : Effect s m t) (hm : m ≠ .reset) (hne : t.wrDir ≠ s.wrDir) :
    (s.seqState = .slot0 ∧ t.seqState = .slot1 ∧ t.wrDir = true) ∨
      (s.seqState = .release ∧ t.seqState = .settle ∧ t.wrDir = false) := by
  cases h with
  | slot0 hq _ => exact .inl ⟨hq, rfl, rfl⟩
  | release hq _ => exact .inr ⟨hq, rfl, rfl⟩
  | reset => exact absurd rfl hm
  | _ => exact absurd rfl hne

/-- The writers of `SENSE_OUT` (R23). -/
theorem Effect.senseOut_writers (h : Effect s m t) (hm : m ≠ .reset) (hne : t.senseOut ≠ s.senseOut) :
    m = .seq ∧ (s.seqState, t.seqState) ∈ [(SeqState.arm, SeqState.slot0), (.slot0, .slot1), (.slot1, .slot2),
      (.slot2, .slot3), (.slot3, .release), (.waitRearm, .idle)] := by
  cases h with
  | arm hq => simp [hq, armAction]
  | slot0 hq _ => simp [hq, slot0Action]
  | slot1 hq _ => simp [hq, slot1Action]
  | slot2 hq _ => simp [hq, slot2Action]
  | slot3 hq _ => simp [hq, slot3Action]
  | finish n hq _ => simp [hq, finishAction]
  | reset => exact absurd rfl hm
  | _ => exact absurd rfl hne

/-- The writers of `GIE` (R28, R64). -/
theorem Effect.gie_writers (h : Effect s m t) (hm : m ≠ .reset) (hne : t.gie ≠ s.gie) :
    (s.seqState = .idle ∧ t.seqState = .waitHs ∧ t.gie = false) ∨
      ((s.seqState = .waitHs ∨ s.seqState = .waitRearm) ∧ t.seqState = .idle ∧ t.gie = true) ∨
      (m = .system t.gie ∧ s.seqState = .idle) := by
  cases h with
  | accept _ _ hq => exact .inl ⟨hq, rfl, rfl⟩
  | aborted _ hq _ => exact .inr (.inl ⟨.inl hq, rfl, rfl⟩)
  | finish _ hq _ => exact .inr (.inl ⟨.inr hq, rfl, rfl⟩)
  | system _ hq => exact .inr (.inr ⟨rfl, hq⟩)
  | reset => exact absurd rfl hm
  | _ => exact absurd rfl hne

/-- The one writer of `DATA` and `MODE` (R30, R31). -/
theorem Effect.data_mode_writers (h : Effect s m t) (hm : m ≠ .reset) (hne : t.data ≠ s.data ∨ t.mode ≠ s.mode) :
    s.seqState = .idle ∧ t.seqState = .waitHs ∧ ∃ word : CmdWord, s.program = word :: t.program ∧
      t.data = word.extractLsb' 0 8 ∧ t.mode = modeOfBit (word.getLsbD 8) := by
  cases h with
  | accept word _ hq hp _ => exact ⟨hq, rfl, word, hp, rfl, rfl⟩
  | reset => exact absurd rfl hm
  | _ => exact hne.elim (absurd rfl) (absurd rfl)

/-! ### `TMR_RUN` matches `STATE` (R27) -/

theorem timerMatches_iff (s : State) : s.timerMatches = true ↔ s.tmrRun = timed s.seqState := by
  simp [State.timerMatches]

/-- ARM starts the timer; the two exits and a reset event stop it; the other arrows stay on one side of ARM. -/
theorem Effect.keeps_timerMatches (h : Effect s m t) (hs : s.timerMatches = true) : t.timerMatches = true := by
  rw [timerMatches_iff] at hs ⊢
  cases h with
  | arm | aborted | finish | reset => rfl
  | accept _ _ hq | handshake _ hq | slot0 hq | slot1 hq | slot2 hq | slot3 hq | release hq | settle hq =>
    rw [hq] at hs
    exact hs
  | _ => exact hs

/-! ### The released write line (R38) -/

/-- What `lineParked` says of the five states of R38. -/
theorem writeReleased_of_lineParked (hs : s.lineParked = true)
    (hq : s.seqState ∈ [SeqState.idle, .waitHs, .arm, .settle, .waitRearm]) : s.writeReleased = true := by
  simp only [List.mem_cons, List.not_mem_nil, or_false] at hq
  rcases hq with hq | hq | hq | hq | hq <;>
    simpa [State.lineParked, State.writeReleased, hq] using hs

/-- An arrow between the states of R38 writes neither the direction nor the latch, and RELEASE parks the line. -/
theorem Effect.keeps_lineParked (h : Effect s m t) (hs : s.lineParked = true) : t.lineParked = true := by
  cases h with
  | accept _ _ hq | aborted _ hq | handshake _ hq | settle hq | finish _ hq =>
    have hr : s.writeReleased = true := writeReleased_of_lineParked hs (by simp [hq])
    exact hr
  | arm | slot0 | slot1 | slot2 | slot3 | release | reset => rfl
  | _ => exact hs

theorem writeReleased_of_driven (hd : s.wrDir = true) : s.writeReleased = false := by
  simp [State.writeReleased, hd]

/-- The block drives the line from the SLOT0 action to the RELEASE action (R135). -/
theorem wrDir_of_frameLevels (hs : s.frameLevels = true)
    (hq : s.seqState ∈ [SeqState.slot1, .slot2, .slot3, .release]) : s.wrDir = true := by
  simp only [List.mem_cons, List.not_mem_nil, or_false] at hq
  rcases hq with hq | hq | hq | hq <;>
  · simp only [State.frameLevels, hq, State.drivesPair, Bool.and_eq_true] at hs
    obtain ⟨⟨hd, -⟩, -⟩ := hs
    exact hd

/-- The released condition ends at SLOT0's action and comes back at RELEASE's. The actions between the two write the
latch of a line that is driven. -/
theorem Effect.writeReleased_cases (h : Effect s m t) (hm : m ≠ .reset) (hs : s.frameLevels = true) :
    t.writeReleased = s.writeReleased ∨
      (s.seqState = .slot0 ∧ t.seqState = .slot1 ∧ t.writeReleased = false) ∨
      (s.seqState = .release ∧ t.seqState = .settle ∧ t.writeReleased = true) := by
  cases h with
  | slot0 hq _ => exact .inr (.inl ⟨hq, rfl, rfl⟩)
  | release hq _ => exact .inr (.inr ⟨hq, rfl, rfl⟩)
  | slot1 hq _ | slot2 hq _ | slot3 hq _ =>
    have hd : s.wrDir = true := wrDir_of_frameLevels hs (by simp [hq])
    refine .inl (Eq.trans ?_ (writeReleased_of_driven hd).symm)
    exact writeReleased_of_driven hd
  | reset => exact absurd rfl hm
  | _ => exact .inl rfl

/-! ### The command port (R62) -/

section Port

variable (s) (p : List CmdWord) (v : Bool)

theorem nextMove_withPort :
    (s.withPort p v).nextMove = (s.nextMove.1, s.nextMove.2.withPort p v) := by
  simp only [State.nextMove, State.withPort]
  split <;> rfl

theorem wrRead_withPort : (s.withPort p v).wrRead = (s.wrRead.1, s.wrRead.2.withPort p v) := by
  have hl : (s.withPort p v).wrLevel = s.wrLevel := rfl
  simp only [State.wrRead, hl]
  split <;> rfl

theorem handshakePoll_withPort : handshakePoll (s.withPort p v) = (handshakePoll s).withPort p v := by
  have ha : (s.withPort p v).abort = s.abort := rfl
  simp only [handshakePoll, wrRead_withPort, ha, apply_ite (State.withPort · p v)]
  rfl

theorem rearmPoll_withPort : rearmPoll (s.withPort p v) = (rearmPoll s).withPort p v := by
  have ha : (s.withPort p v).abort = s.abort := rfl
  simp only [rearmPoll, wrRead_withPort, ha, apply_ite (State.withPort · p v)]
  rfl

theorem timerTick_withPort : (s.withPort p v).timerTick = s.timerTick.withPort p v := by
  simp only [State.timerTick, apply_ite (State.withPort · p v)]
  rfl

/-- The deadline of an action does not look at the port. -/
theorem whenReached_withPort (k : Fin 6) {action : State → State}
    (h : action (s.withPort p v) = (action s).withPort p v) :
    whenReached k action (s.withPort p v) = (whenReached k action s).withPort p v := by
  simp only [whenReached, h, apply_ite (State.withPort · p v)]
  rfl

theorem seqBody_withPort : seqBody (s.withPort p v) = (seqBody s).withPort p v := by
  have hq : (s.withPort p v).seqState = s.seqState := rfl
  simp only [seqBody, hq]
  cases s.seqState with
  | waitHs => exact handshakePoll_withPort s p v
  | waitRearm => exact rearmPoll_withPort s p v
  | slot0 | slot1 | slot2 | slot3 | release | settle => exact whenReached_withPort s p v _ rfl
  | idle | arm | unused => rfl

theorem checked_withPort (a : State) :
    checked (s.withPort p v) (a.withPort p v) = mapNext (fun t => t.withPort p v) (checked s a) := by
  have hc : (s.withPort p v).cfg = s.cfg := rfl
  have hs : (s.withPort p v).faultOf = s.faultOf := rfl
  have ha : (a.withPort p v).faultOf = a.faultOf := rfl
  unfold checked
  rw [hc, hs, ha]
  cases admitted s.cfg <;> cases s.faultOf <;> cases a.faultOf <;> rfl

end Port

/-- Where a move of a busy block leads does not depend on the port: `SEQ` takes a word in `IDLE` alone. -/
theorem after_withPort (hb : s.seqState ≠ .idle) (hm : m ≠ .caller) (p : List CmdWord) (v : Bool) :
    after m (s.withPort p v) = (after m s).withPort p v := by
  cases m with
  | seq =>
    have hb' : (s.withPort p v).seqState ≠ .idle := hb
    rw [after_seq_busy hb, after_seq_busy hb', seqBody_withPort]
  | timer => exact timerTick_withPort s p v
  | system b =>
    have hb' : (s.withPort p v).seqState ≠ .idle := hb
    simp only [after, systemStep_busy hb, systemStep_busy hb']
  | caller => exact absurd rfl hm
  | host | motor | reset => rfl

/-! ### The obligations -/

/-- Settles O42: the invariant by the effects of a move; the second clause by what a move can do to the released
condition. -/
theorem everyStepKeepsTheLineParked : Obligations.EveryStepKeepsTheLineParked := by
  intro s t h
  obtain ⟨sch, n, he⟩ := step_effect_frame h
  refine ⟨he.keeps_lineParked, fun hlevels hm => ?_⟩
  obtain hsame | ⟨hq, hq', hr⟩ | ⟨hq, hq', hr⟩ := he.writeReleased_cases hm hlevels
  · have hsame : t.writeReleased = s.writeReleased := hsame
    exact ⟨fun hs ht => by simp [hsame, hs] at ht, fun hs ht => by simp [hsame, hs] at ht⟩
  · exact ⟨fun _ _ => ⟨hq, hq'⟩, fun _ ht => by simp [hr] at ht⟩
  · exact ⟨fun _ ht => by simp [hr] at ht, fun _ _ => ⟨hq, hq'⟩⟩

/-- Settles O43. -/
theorem everyStepKeepsTimerMatchingState : Obligations.EveryStepKeepsTimerMatchingState := by
  intro s t h
  obtain ⟨sch, n, he⟩ := step_effect_frame h
  exact he.keeps_timerMatches

/-- Settles O35: the new pull meets a driven line in the second clause alone. -/
theorem hostMove : Obligations.HostMove := by
  intro s pull hrun
  obtain ⟨hadm, -, hcode⟩ := running_facts hrun
  refine ⟨fun hfree => ?_, fun hd hpull => ?_⟩
  · have hquiet : s.wrDir = true → pull = false := fun hd => hfree.resolve_left (by simp [hd])
    exact step_withMove_eq_of_after hrun rfl (faultOf_none hquiet hcode)
  · rw [step_withMove, checked_eq_fault_iff]
    exact ⟨hadm, .inr ⟨faultOf_of_running hrun, faultOf_contention _ hd hpull⟩⟩

/-- Settles O36: none of these moves touches what a fault is read from, so each answers the state it leads to. -/
theorem motorCallerAndSystemMoves : Obligations.MotorCallerAndSystemMoves := by
  intro s hrun
  have hf : s.faultOf = none := faultOf_of_running hrun
  exact ⟨fun level => step_withMove_eq_of_after hrun rfl hf,
    fun hp => step_withMove_eq_of_after hrun (callerStep_of_ne_nil hp) hf,
    fun hp => step_withMove_eq_of_after hrun (callerStep_held hp) hf,
    fun b hq => step_withMove_eq_of_after hrun (systemStep_idle hq b) hf,
    fun b hq => step_withMove_eq_of_after hrun (systemStep_busy hq b) hf⟩

/-- Settles O49. -/
theorem onlySlot0AndReleaseTurnTheLine : Obligations.OnlySlot0AndReleaseTurnTheLine := by
  intro s t h
  obtain ⟨sch, n, he⟩ := step_effect_frame h
  exact he.wrDir_writers

/-- Settles O50. -/
theorem onlyArmSlotsAndFinishWriteSense : Obligations.OnlyArmSlotsAndFinishWriteSense := by
  intro s t h
  obtain ⟨sch, n, he⟩ := step_effect_frame h
  exact he.senseOut_writers

/-- Settles O51. -/
theorem onlyAcceptanceExitsAndTheSystemWriteGie : Obligations.OnlyAcceptanceExitsAndTheSystemWriteGie := by
  intro s t h
  obtain ⟨sch, n, he⟩ := step_effect_frame h
  exact he.gie_writers

/-- Settles O52. -/
theorem onlyAcceptanceWritesDataAndMode : Obligations.OnlyAcceptanceWritesDataAndMode := by
  intro s t h
  obtain ⟨sch, n, he⟩ := step_effect_frame h
  exact he.data_mode_writers

/-- Settles O53: replacing the port commutes with choosing the move, with performing it, and with `checked`. -/
theorem busyBlockIgnoresTheCommandPort : Obligations.BusyBlockIgnoresTheCommandPort := by
  intro s p v hbusy hm
  have hq : s.nextMove.2.seqState ≠ .idle := by
    rw [nextMove_frame]
    simpa [State.busy] using hbusy
  rw [step_eq_checked, step_eq_checked, nextMove_withPort, after_withPort hq hm, checked_withPort]

/-- Settles O9. -/
theorem resetStateIsIdleAndReleased : Obligations.ResetStateIsIdleAndReleased := by
  refine ⟨rfl, rfl, rfl, rfl, rfl, rfl, rfl, ?_, ?_⟩ <;> decide

/-- Settles O11. -/
theorem invariantsHoldAfterReset : Obligations.InvariantsHoldAfterReset := by
  refine ⟨?_, rfl, rfl, rfl, rfl, ?_⟩ <;> decide

end Sys2Proof.Machine

/-! ## The write line and contention (20_memory.md) -/

namespace Sys2Proof.Machine

variable {s t : State} {m : Move} {f : Fault}

/-- Contention is read off the direction and the host's pull alone (R53). -/
theorem faultOf_of_same_line (hs : s.faultOf = none) (hd : t.wrDir = s.wrDir) (hp : t.hostPull = s.hostPull)
    (hcode : t.badCode = false) : t.faultOf = none := by
  obtain ⟨hline, -⟩ := (faultOf_eq_none_iff s).1 hs
  rw [faultOf_eq_none_iff, hd, hp]
  exact ⟨hline, hcode⟩

/-! ### Polls of the floating line (R54) -/

/-- The handshake poll of a floating line is that of the level it draws; abort wins over it (R122). -/
theorem handshakePoll_floating (hl : s.wrLevel = .floating) :
    handshakePoll s =
      if s.abort then abortExit { s with draws := s.draws + 1 }
      else if Config.freeLevel s.draws then { s with draws := s.draws + 1 }.goto .arm
      else { s with draws := s.draws + 1 } := by
  simp only [handshakePoll, wrRead_floating hl]

/-- So is the re-arm poll, which a low level or abort ends (R131). -/
theorem rearmPoll_floating (hl : s.wrLevel = .floating) :
    rearmPoll s =
      if !Config.freeLevel s.draws || s.abort then finishAction { s with draws := s.draws + 1 }
      else { s with draws := s.draws + 1 } := by
  simp only [rearmPoll, wrRead_floating hl]

theorem termPol_eq_decide (md : Mode) : termPol md = decide (md = .loader) := by
  cases md <;> rfl

/-- A step of `SEQ` in a busy block, whose state action leaves both sides of the line and reaches a named code. -/
theorem step_seqBody_of_same_line (hr : s.running = true) (hq : s.seqState ≠ .idle) (hb : seqBody s = t)
    (hd : t.wrDir = s.wrDir) (hp : t.hostPull = s.hostPull) (hcode : t.badCode = false) :
    step (s.withMove .seq) = .next t :=
  step_withMove_eq_of_after hr ((after_seq_busy hq).trans hb)
    (faultOf_of_same_line (faultOf_of_running hr) hd hp hcode)

/-! ### The effects that record a fault (R53) -/

/-- A command writes neither side of the line, and it leads from a named code to a named code. -/
theorem afterCommand_faultOf (i : Instr) (hs : s.faultOf = none) : (afterCommand i s).faultOf = none := by
  unfold afterCommand
  split
  · cases i <;> exact faultOf_of_same_line hs rfl rfl rfl
  · exact hs

/-- Two effects alone lead from a state without a fault to one with a fault: SLOT0's action under a host pull, and the
host's pull of a driven line. -/
theorem Effect.fault_cases (h : Effect s m t) (hs : s.faultOf = none) (hf : t.faultOf = some f) :
    f = .busContention ∧
      ((m = .seq ∧ s.seqState = .slot0 ∧ s.hostPull = true ∧ s.reached 0 = true) ∨
        (m = .host true ∧ s.wrDir = true)) := by
  have hfault : t.faultOf ≠ none := by simp [hf]
  cases h with
  | slot0 hq hr =>
    cases hp : s.hostPull with
    | true =>
      have hf : f = .busContention := Option.some.inj (hf.symm.trans (faultOf_contention _ rfl hp))
      exact ⟨hf, .inl ⟨rfl, hq, rfl, hr⟩⟩
    | false => exact (hfault (faultOf_none (fun _ => hp) rfl)).elim
  | host pull =>
    by_cases hc : s.wrDir = true ∧ pull = true
    · obtain ⟨hd, rfl⟩ := hc
      have hf : f = .busContention := Option.some.inj (hf.symm.trans (faultOf_contention _ hd rfl))
      exact ⟨hf, .inr ⟨rfl, hd⟩⟩
    · obtain ⟨-, hcode⟩ := (faultOf_eq_none_iff s).1 hs
      exact (hfault ((faultOf_eq_none_iff _).2 ⟨hc, hcode⟩)).elim
  | release | reset => exact (hfault (faultOf_none nofun rfl)).elim
  | accept | aborted | handshake | arm | slot1 | slot2 | slot3 | settle | finish =>
    exact (hfault (faultOf_of_same_line hs rfl rfl rfl)).elim
  | hold | tick | noTick | motor | caller | system | noSystem => exact absurd hs hfault

/-- The inversion of a fault from a state that may step: an effect of the next move, on `s` with its schedule and draws
advanced, records it. -/
theorem step_fault_effect (hr : s.running = true) (h : step s = .fault f) :
    ∃ sch n t, Effect { s with schedule := sch, draws := n } s.nextMove.1 t ∧ t.faultOf = some f := by
  have hs : s.nextMove.2.faultOf = none := faultOf_of_running ((nextMove_running s).trans hr)
  rw [step_eq_checked, checked_eq_fault_iff, hs] at h
  obtain ⟨-, hbefore | ⟨-, hafter⟩⟩ := h
  · cases hbefore
  · have he := effect_after s.nextMove.1 s.nextMove.2
    generalize after s.nextMove.1 s.nextMove.2 = t at he hafter
    rw [nextMove_frame] at he
    exact ⟨_, _, _, he, hafter⟩

/-- Outside the states from SLOT1 to RELEASE the frame's levels leave the write line an input (R135). -/
theorem mem_of_driven_frameLevels (hs : s.frameLevels = true) (hcode : s.badCode = false) (hd : s.wrDir = true) :
    s.seqState ∈ [SeqState.slot1, .slot2, .slot3, .release] := by
  have hr : s.writeReleased = false := writeReleased_of_driven hd
  cases hq : s.seqState with
  | slot1 | slot2 | slot3 | release => simp
  | idle | waitHs | arm | slot0 | settle | waitRearm => simp [State.frameLevels, hq, hr] at hs
  | unused => simp [State.badCode, hq] at hcode

/-! ### The obligations -/

/-- Settles O16: `exec` is `checked` of a state that records no fault of its own, so it stops only for the state
before it. -/
theorem txlAndTxcStopOnlyOnARecordedFault : Obligations.TxlAndTxcStopOnlyOnARecordedFault := by
  intro i s
  rw [exec_eq_checked]
  refine ⟨fun ha => ?_, fun ha hd hp => ?_, fun ha hline => ⟨fun offset hq => ?_, fun hq => ?_⟩⟩
  · exact (checked_eq_refused_iff s _ _).2 ⟨ha, rfl⟩
  · exact (checked_eq_fault_iff s _ _).2 ⟨ha, .inl (faultOf_contention s hd hp)⟩
  · have hcode : s.badCode = true := (badCode_eq_true_iff s).2 ⟨offset, hq⟩
    exact (checked_eq_fault_iff s _ _).2 ⟨ha, .inl (faultOf_badCode s hline hcode)⟩
  · have hcode : s.badCode = false :=
      Bool.eq_false_iff.2 fun hb => ((badCode_eq_true_iff s).1 hb).elim hq
    have hs : s.faultOf = none := (faultOf_eq_none_iff s).2 ⟨hline, hcode⟩
    exact ⟨_, (checked_eq_next_iff s _ _).2 ⟨(running_iff s).2 ⟨ha, hs⟩, afterCommand_faultOf i hs, rfl⟩⟩

/-- Settles O22: each poll is that of the drawn level, and an exit draws the count after it. -/
theorem floatingPollsDrawTheirLevel : Obligations.FloatingPollsDrawTheirLevel := by
  intro s hr hl
  have hhs : s.seqState = .waitHs → seqBody s = handshakePoll s := fun hq => by simp only [seqBody, hq]
  have hre : s.seqState = .waitRearm → seqBody s = rearmPoll s := fun hq => by simp only [seqBody, hq]
  rw [handshakePoll_floating hl] at hhs
  rw [rearmPoll_floating hl] at hre
  refine ⟨fun hq ha => ?_, fun hq ha => ?_, fun hq hhigh ha => ?_, fun hq hend => ?_⟩
  · refine step_seqBody_of_same_line hr (by simp [hq]) ?_ rfl rfl ?_
    · rw [hhs hq, ha]
      cases Config.freeLevel s.draws <;> simp [State.goto, ← hq]
    · cases Config.freeLevel s.draws <;> rfl
  · refine step_seqBody_of_same_line hr (by simp [hq]) ?_ rfl rfl rfl
    rw [hhs hq, ha]
    rfl
  · refine step_seqBody_of_same_line hr (by simp [hq]) ?_ rfl rfl (by simp [State.badCode, hq])
    rw [hre hq, ha, hhigh]
    rfl
  · refine step_seqBody_of_same_line hr (by simp [hq]) ?_ rfl rfl rfl
    have hfinish : (!Config.freeLevel s.draws || s.abort) = true := by simpa using hend
    rw [hre hq, if_pos hfinish, ← termPol_eq_decide]
    rfl

/-- Settles O37: the next move is performed on the same line, whose fault comes before any move's. -/
theorem contentionStopsEveryAgent : Obligations.ContentionStopsEveryAgent := by
  intro s ha hd hp
  refine ⟨?_, fun hlevels hcode => mem_of_driven_frameLevels hlevels hcode hd⟩
  rw [step_eq_checked, checked_eq_fault_iff, nextMove_frame]
  exact ⟨ha, .inl (faultOf_contention _ hd hp)⟩

/-- Settles O40. -/
theorem onlyTheHostCausesAFault : Obligations.OnlyTheHostCausesAFault := by
  intro s f hr h
  obtain ⟨sch, n, t, he, hf⟩ := step_fault_effect hr h
  have hs : s.faultOf = none := faultOf_of_running hr
  exact he.fault_cases hs hf

/-- Settles O23: the table of R52 is the definition's. -/
theorem writeLineLevelTable : Obligations.WriteLineLevelTable := by
  intro s
  refine ⟨fun hd hv hp => ?_, fun hd hv hp => ?_, fun hd hv hp => ?_, fun hd hv hp => ?_, fun hd hp => ?_,
    fun hd hp => ?_⟩
  all_goals simp only [State.wrLevel, *]

end Sys2Proof.Machine

/-! ## Commands and command words (30_encoding.md) -/

namespace Sys2Proof

/-! ### The fields of a word -/

/-- A field of one bit is that bit. -/
theorem extractLsb'_one_eq_ofBool {w : Nat} (x : BitVec w) (k : Nat) :
    x.extractLsb' k 1 = BitVec.ofBool (x.getLsbD k) := by
  rw [BitVec.getLsbD_eq_extractLsb']
  obtain h | h := BitVec.eq_zero_or_eq_one (x.extractLsb' k 1) <;> rw [h] <;> rfl

/-- The bit below a field extends it. -/
theorem extractLsb'_append_bit {w : Nat} (x : BitVec w) (k n : Nat) :
    x.extractLsb' (k + 1) n ++ BitVec.ofBool (x.getLsbD k) = x.extractLsb' k (n + 1) := by
  rw [← extractLsb'_one_eq_ofBool, BitVec.extractLsb'_append_extractLsb'_eq_extractLsb' rfl]

/-- A word is its mode bit above its data byte (R70). -/
theorem modeBit_append_data (word : CmdWord) :
    BitVec.ofBool (word.getLsbD 8) ++ word.extractLsb' 0 8 = word := by
  rw [← extractLsb'_one_eq_ofBool]
  exact (BitVec.extractLsb'_append_extractLsb'_eq_extractLsb' rfl).trans BitVec.extractLsb'_eq_self

theorem toNat_encode_txl (d : Byte) : (encode (.txl d)).toNat = d.toNat := by
  rw [encode, BitVec.toNat_append, BitVec.toNat_ofNat, Nat.zero_mod, Nat.zero_shiftLeft, Nat.zero_or]

theorem toNat_encode_txc (d : Byte) : (encode (.txc d)).toNat = 256 + d.toNat := by
  rw [encode, BitVec.toNat_append, ← Nat.shiftLeft_add_eq_or_of_lt d.isLt]
  rfl

/-- The type `Byte` keeps every operand in range (R73). -/
theorem wellFormed_eq_true (i : Instr) : i.wellFormed = true := by
  cases i with
  | txl d | txc d => exact decide_eq_true (Nat.le_of_lt_succ d.isLt)

/-! ### The decoder and the encoder invert each other -/

theorem decode_eq_txl {word : CmdWord} (hmode : word.getLsbD 8 = false) :
    decode word = .txl (word.extractLsb' 0 8) :=
  if_neg (Bool.eq_false_iff.1 hmode)

theorem decode_eq_txc {word : CmdWord} (hmode : word.getLsbD 8 = true) :
    decode word = .txc (word.extractLsb' 0 8) :=
  if_pos hmode

@[simp] theorem decode_encode (i : Instr) : decode (encode i) = i := by
  cases i with
  | txl d =>
    have hmode : (encode (.txl d)).getLsbD 8 = false := BitVec.getLsbD_append
    exact (decode_eq_txl hmode).trans (congrArg Instr.txl (Laws.OpcodeRow.txl d).2)
  | txc d =>
    have hmode : (encode (.txc d)).getLsbD 8 = true := BitVec.getLsbD_append
    exact (decode_eq_txc hmode).trans (congrArg Instr.txc (Laws.OpcodeRow.txc d).2)

@[simp] theorem encode_decode (word : CmdWord) : encode (decode word) = word := by
  have hword := modeBit_append_data word
  cases hmode : word.getLsbD 8 with
  | false =>
    rw [decode_eq_txl hmode]
    rwa [hmode] at hword
  | true =>
    rw [decode_eq_txc hmode]
    rwa [hmode] at hword

/-! ### The decoder on numbers -/

theorem decodeBits_of_lt {n : Nat} (h : n < 512) : decodeBits n = .ok (decode (BitVec.ofNat 9 n)) :=
  if_pos h

theorem decodeBits_of_le {n : Nat} (h : 512 ≤ n) : decodeBits n = .error (.notNineBits n) :=
  if_neg h.not_gt

theorem decodeBits_toNat_encode (i : Instr) : decodeBits (encode i).toNat = .ok i := by
  rw [decodeBits_of_lt (encode i).isLt, BitVec.ofNat_toNat, BitVec.setWidth_eq, decode_encode]

/-- A number of nine bits is the word of the command that the decoder reads from it. -/
theorem exists_decodeBits_eq_ok {n : Nat} (h : n < 512) : ∃ i, decodeBits n = .ok i ∧ (encode i).toNat = n := by
  refine ⟨_, decodeBits_of_lt h, ?_⟩
  rw [encode_decode]
  exact (BitVec.toNat_ofNat n 9).trans (Nat.mod_eq_of_lt h)

/-! ### The obligations -/

/-- Settles O2. -/
theorem encodeThenDecodeIsIdentity : Obligations.EncodeThenDecodeIsIdentity := by
  intro i
  have hbits : decodeBits (encode i).toNat = .ok i := decodeBits_toNat_encode i
  refine ⟨decode_encode i, hbits, ?_, ?_⟩
  · rw [decodeTableWord, Nat.mod_eq_of_lt (encode i).isLt, hbits]
    rfl
  · cases i with
    | txl d => exact toNat_encode_txl d
    | txc d => exact toNat_encode_txc d

/-- Settles O3: the number is the word of the command it decodes to, and that word is below 256 for TXL alone. -/
theorem everyNineBitWordIsACommand : Obligations.EveryNineBitWordIsACommand := by
  intro n
  refine ⟨fun h => ?_, fun h => ?_, fun hlow h => ?_, decodeBits_of_le⟩
  · obtain ⟨i, hi, hn⟩ := exists_decodeBits_eq_ok h
    exact ⟨i, hi, wellFormed_eq_true i, hn⟩
  · obtain ⟨i, hi, hn⟩ := exists_decodeBits_eq_ok (show n < 512 by omega)
    cases i with
    | txl d => exact ⟨d, hi⟩
    | txc d => rw [toNat_encode_txc] at hn; omega
  · obtain ⟨i, hi, hn⟩ := exists_decodeBits_eq_ok h
    cases i with
    | txl d => rw [toNat_encode_txl] at hn; omega
    | txc d => exact ⟨d, hi⟩

/-- Settles O4: from bit 7 down, each sampled bit extends the byte's field above it by one, up to the whole byte. -/
theorem receiverRecoversTheByte : Obligations.ReceiverRecoversTheByte := by
  intro d
  calc
    _ = d.extractLsb' 0 8 := by
      simp only [Machine.receive, Machine.pairSense, Machine.pairWrite]
      rw [← extractLsb'_one_eq_ofBool d 7, extractLsb'_append_bit d 6, extractLsb'_append_bit d 5,
        extractLsb'_append_bit d 4, extractLsb'_append_bit d 3, extractLsb'_append_bit d 2,
        extractLsb'_append_bit d 1, extractLsb'_append_bit d 0]
    _ = d := BitVec.extractLsb'_eq_self

end Sys2Proof

/-! ## The interrupt guard (40_guard.md) -/

namespace Sys2Proof.Machine

variable {s t : State} {m : Move}

theorem guardHolds_iff (s : State) : s.guardHolds = true ↔ (s.seqState ≠ .idle → s.gie = false) := by
  simp [State.guardHolds, State.busy, or_iff_not_imp_left]

/-- Acceptance masks interrupts, the arrows inside a command leave `GIE`, and its three other writers (the two exits,
the system and a reset event) end in `IDLE`. -/
theorem Effect.keeps_guardHolds (h : Effect s m t) (hs : s.guardHolds = true) : t.guardHolds = true := by
  rw [guardHolds_iff] at hs ⊢
  cases h with
  | accept => exact fun _ => rfl
  | handshake _ hq | arm hq | slot0 hq | slot1 hq | slot2 hq | slot3 hq | release hq | settle hq =>
    have hmasked : s.gie = false := hs (by simp [hq])
    exact fun _ => hmasked
  | aborted | finish | reset => exact fun hbusy => absurd rfl hbusy
  | system _ hq => exact fun hbusy => absurd hq hbusy
  | _ => exact hs

/-- Settles O44. -/
theorem everyStepKeepsInterruptsMaskedWhileBusy : Obligations.EveryStepKeepsInterruptsMaskedWhileBusy := by
  intro s t h
  obtain ⟨sch, n, he⟩ := step_effect_frame h
  exact he.keeps_guardHolds

end Sys2Proof.Machine

/-! ## The timer (41_timer.md) -/

namespace Sys2Proof.Machine

variable {s t : State} {m : Move} {c : Config} {k : Fin 6}

/-! ### Thresholds (R105, R110) -/

/-- A deadline is at most `n` ticks away exactly when `n` ticks cover it: the ceiling of R105 over the integers. -/
theorem threshold_le_iff (hc : clockAdmitted c = true) (k : Fin 6) (n : Int) :
    (threshold c k : Int) ≤ n ↔ (c.deadlineUs[k] : Int) * c.clkHz ≤ n * c.prescale * 1000000 := by
  obtain ⟨hp, -⟩ := (clockAdmitted_iff c).1 hc
  have hpos : 0 < c.prescale * 1000000 := by positivity
  have hceil : (threshold c k : Int) =
      ((c.deadlineUs[k] : Int) * c.clkHz + (c.prescale * 1000000 - 1)) / (c.prescale * 1000000) := by
    simp only [threshold, microsPerSecond]
    push_cast [Nat.cast_sub (Nat.one_le_of_lt hpos)]
    rfl
  rw [hceil, Int.ediv_le_iff_le_mul (by exact_mod_cast hpos), mul_assoc n]
  omega

/-- The elapsed time in µs is that of the ticks multiplied out, for a clock that runs (R104). -/
theorem le_elapsedMicros_iff (hc : clockAdmitted c = true) (d : Nat) (n : Int) :
    (d : Rat) ≤ elapsedMicros c n ↔ (d : Int) * c.clkHz ≤ n * c.prescale * 1000000 := by
  obtain ⟨hp, hclk⟩ := (clockAdmitted_iff c).1 hc
  have hpos : (0 : Rat) < c.clkHz := by
    have : 0 < c.clkHz := by omega
    exact_mod_cast this
  rw [elapsedMicros, le_div_iff₀ hpos]
  exact_mod_cast Iff.rfl

/-- Strictly increasing deadlines have thresholds in the same order (R78, R105). -/
theorem threshold_mono (ha : admitted c = true) : Monotone (threshold c) := by
  obtain ⟨-, hd, -⟩ := (admitted_iff c).1 ha
  obtain ⟨-, hincr⟩ := (deadlinesAdmitted_iff c).1 hd
  have hmono : StrictMono fun k : Fin 6 => c.deadlineUs[k] := Fin.strictMono_iff_lt_succ.2 hincr
  intro i j hij
  exact Nat.div_le_div_right (Nat.add_le_add_right (Nat.mul_le_mul_right _ (hmono.monotone hij)) _)

/-- Every `T_k + LAT_MAX` lies below the top of the signed range, as `T_5 + LAT_MAX` does (R110). -/
theorem threshold_add_latMax_lt (ha : admitted c = true) (k : Fin 6) :
    (threshold c k : Int) + c.latMax < 2 ^ (c.cntWidth - 1) := by
  obtain ⟨-, -, hw⟩ := (admitted_iff c).1 ha
  obtain ⟨-, -, htop⟩ := (widthAdmitted_iff c).1 hw
  have hlast : threshold c k ≤ threshold c 5 := threshold_mono ha (Fin.le_last k)
  calc (threshold c k : Int) + c.latMax ≤ (threshold c 5 + c.latMax : Nat) := by push_cast; omega
    _ < 2 ^ (c.cntWidth - 1) := by exact_mod_cast htop

/-! ### The deadline states (R78, R107) -/

/-- The six states behind a deadline, each with its deadline's number. -/
theorem deadlineOf_eq_some_iff (q : SeqState) (k : Fin 6) :
    deadlineOf q = some k ↔
      (q, k) ∈ [(SeqState.slot0, (0 : Fin 6)), (.slot1, 1), (.slot2, 2), (.slot3, 3), (.release, 4),
        (.settle, 5)] := by
  cases q <;> simp [deadlineOf, eq_comm]

/-- The one state in which the timer runs and no deadline gates an action (R27). -/
theorem eq_waitRearm_of_timed {q : SeqState} (ht : timed q = true) (hk : deadlineOf q = none) :
    q = .waitRearm := by
  cases q with
  | waitRearm => rfl
  | slot0 | slot1 | slot2 | slot3 | release | settle => cases hk
  | idle | waitHs | arm | unused => cases ht

theorem ne_idle_of_deadline (hk : deadlineOf s.seqState = some k) : s.seqState ≠ .idle := by
  intro hq
  rw [hq] at hk
  cases hk

/-- The action that deadline `k` gates (R125 to R130). -/
def deadlineAction : Fin 6 → State → State
  | 0 => slot0Action
  | 1 => slot1Action
  | 2 => slot2Action
  | 3 => slot3Action
  | 4 => releaseAction
  | 5 => settleAction

/-- The state action of a deadline state is its action behind its deadline (R107). -/
theorem seqBody_of_deadline (hk : deadlineOf s.seqState = some k) :
    seqBody s = whenReached k (deadlineAction k) s := by
  cases hq : s.seqState with
  | slot0 | slot1 | slot2 | slot3 | release | settle =>
    rw [hq] at hk
    cases hk
    simp only [seqBody, hq]
    rfl
  | _ => simp [hq, deadlineOf] at hk

/-- A due action follows its arrow of the state graph (R120). -/
theorem mayGo_deadlineAction (hk : deadlineOf s.seqState = some k) (hr : s.reached k = true) :
    s.mayGo (deadlineAction k s).seqState = true := by
  cases hq : s.seqState with
  | slot0 | slot1 | slot2 | slot3 | release | settle =>
    rw [hq] at hk
    cases hk
    simp only [State.mayGo, hq]
    exact hr
  | _ => simp [hq, deadlineOf] at hk

/-- A move other than a reset event leaves a deadline state only once its deadline is reached, at an unchanged count. -/
theorem Effect.leaves_deadline (h : Effect s m t) (hm : m ≠ .reset) (hk : deadlineOf s.seqState = some k)
    (hne : t.seqState ≠ s.seqState) : s.reached k = true ∧ t.cnt = s.cnt := by
  cases h with
  | slot0 hq hr | slot1 hq hr | slot2 hq hr | slot3 hq hr | release hq hr | settle hq hr =>
    rw [hq] at hk
    cases hk
    exact ⟨hr, rfl⟩
  | accept _ _ hq | aborted _ hq | handshake _ hq | arm hq | finish _ hq => simp [hq, deadlineOf] at hk
  | reset => exact absurd rfl hm
  | _ => exact absurd rfl hne

/-! ### When the timer may tick (R100, R109) -/

theorem tickAllowed_iff (s : State) :
    s.tickAllowed = true ↔
      s.tmrRun = true ∧ ∀ k, deadlineOf s.seqState = some k → s.reached k = true →
        s.elapsed < (threshold s.cfg k : Int) + s.cfg.latMax := by
  unfold State.tickAllowed
  cases deadlineOf s.seqState <;> simp [or_iff_not_imp_left]

theorem timerTick_of_allowed (h : s.tickAllowed = true) :
    s.timerTick = { s with cnt := signedValue s.cfg.cntWidth (s.cnt + 1) } :=
  if_pos h

theorem timerTick_of_held (h : ¬s.tickAllowed = true) : s.timerTick = s :=
  if_neg h

/-- A timer that may not tick has no step. -/
theorem step_timer_of_held (hr : s.running = true) (h : ¬s.tickAllowed = true) : step (s.withMove .timer) = .next s :=
  step_withMove_eq_of_after hr (timerTick_of_held h) (faultOf_of_running hr)

/-- With its action due and `LAT_MAX` ticks gone by, a deadline holds the timer. -/
theorem not_tickAllowed_of_late (hk : deadlineOf s.seqState = some k) (hr : s.reached k = true)
    (hlate : (threshold s.cfg k : Int) + s.cfg.latMax ≤ s.elapsed) : ¬s.tickAllowed = true := by
  rw [tickAllowed_iff]
  rintro ⟨-, hbelow⟩
  exact absurd (hbelow k hk hr) hlate.not_gt

/-! ### The count in its slot (R101, R107, R109) -/

/-- The count at which the state of deadline `k` is entered at the earliest: the offset, then the threshold before. -/
def slotFloor (c : Config) : Fin 6 → Int :=
  Fin.cons c.offsetTicks fun j : Fin 5 => (threshold c j.castSucc : Int)

/-- In a deadline state `countInSlot` bounds the count by the slot's floor and its own deadline. -/
theorem countInSlot_iff_of_deadline (hk : deadlineOf s.seqState = some k) :
    s.countInSlot = true ↔
      slotFloor s.cfg k ≤ s.cnt ∧ s.cnt ≤ (threshold s.cfg k : Int) + s.cfg.latMax := by
  rw [← countBetween_iff]
  cases hq : s.seqState with
  | slot0 | slot1 | slot2 | slot3 | release | settle =>
    rw [hq] at hk
    cases hk
    simp only [State.countInSlot, hq]
    rfl
  | _ => simp [hq, deadlineOf] at hk

/-- In a deadline state the invariant bounds the count. -/
theorem count_bounds_of_countKept (hs : s.countKept = true) (hk : deadlineOf s.seqState = some k) :
    slotFloor s.cfg k ≤ s.cnt ∧ s.cnt ≤ (threshold s.cfg k : Int) + s.cfg.latMax := by
  obtain ⟨-, -, -, hin⟩ := (countKept_iff s).1 hs
  exact (countInSlot_iff_of_deadline hk).1 hin

/-- Before the timer starts, the invariant puts the count at the offset. -/
theorem cnt_of_countKept (hs : s.countKept = true) (hq : s.seqState = .waitHs ∨ s.seqState = .arm) :
    s.cnt = s.cfg.offsetTicks := by
  obtain ⟨-, -, -, hin⟩ := (countKept_iff s).1 hs
  rcases hq with hq | hq <;> simpa [State.countInSlot, hq] using hin

/-- Under the invariant `Reached(k)` compares the count itself. -/
theorem reached_iff_of_countKept (hs : s.countKept = true) :
    s.reached k = true ↔ (threshold s.cfg k : Int) ≤ s.cnt := by
  obtain ⟨-, -, he, -⟩ := (countKept_iff s).1 hs
  rw [reached_iff, he]

/-- The floors of an admitted configuration lie in the signed range (R110). -/
theorem slotFloor_ge (ha : admitted c = true) (k : Fin 6) : -(2 ^ (c.cntWidth - 1) : Int) ≤ slotFloor c k := by
  cases k using Fin.cases with
  | zero =>
    obtain ⟨-, -, hw⟩ := (admitted_iff c).1 ha
    obtain ⟨-, hoffset, -⟩ := (widthAdmitted_iff c).1 hw
    exact hoffset
  | succ j =>
    have hthreshold : (0 : Int) ≤ threshold c j.castSucc := Int.natCast_nonneg _
    have hrange : (0 : Int) ≤ 2 ^ (c.cntWidth - 1) := by positivity
    simp only [slotFloor, Fin.cons_succ]
    omega

/-- The move from a reached deadline's state to the next one keeps the invariant: the reached threshold is the next
slot's floor, and the next threshold is no smaller. -/
theorem countKept_next_deadline (j : Fin 5) (hs : s.countKept = true) (hk : deadlineOf s.seqState = some j.castSucc)
    (hr : s.reached j.castSucc = true) (hcfg : t.cfg = s.cfg) (hcnt : t.cnt = s.cnt)
    (hk' : deadlineOf t.seqState = some j.succ) : t.countKept = true := by
  obtain ⟨ha, ho, he, -⟩ := (countKept_iff s).1 hs
  obtain ⟨-, hmax⟩ := count_bounds_of_countKept hs hk
  have hmin : (threshold s.cfg j.castSucc : Int) ≤ s.cnt := (reached_iff_of_countKept hs).1 hr
  have hmono : threshold s.cfg j.castSucc ≤ threshold s.cfg j.succ := threshold_mono ha j.castSucc_lt_succ.le
  have helapsed : t.elapsed = t.cnt := by
    rw [State.elapsed, hcfg, hcnt]
    exact he
  rw [countKept_iff, countInSlot_iff_of_deadline hk', helapsed, hcfg, hcnt]
  refine ⟨ha, ho, rfl, hmin, ?_⟩
  omega

/-- Below its bound a tick adds one to the count of a deadline state without wrapping; in WAIT_REARM nothing bounds
the count. -/
theorem countKept_tick (hm : s.timerMatches = true) (hs : s.countKept = true) (htick : s.tickAllowed = true) :
    ({ s with cnt := signedValue s.cfg.cntWidth (s.cnt + 1) } : State).countKept = true := by
  obtain ⟨ha, ho, he, -⟩ := (countKept_iff s).1 hs
  obtain ⟨hrun, hbelow⟩ := (tickAllowed_iff s).1 htick
  refine (countKept_iff _).2 ⟨ha, ho, signedValue_idem _ _, ?_⟩
  cases hk : deadlineOf s.seqState with
  | none =>
    have hq : s.seqState = .waitRearm := eq_waitRearm_of_timed (((timerMatches_iff s).1 hm).symm.trans hrun) hk
    simp only [State.countInSlot, hq]
  | some k =>
    obtain ⟨hmin, -⟩ := count_bounds_of_countKept hs hk
    have hlt : s.cnt < (threshold s.cfg k : Int) + s.cfg.latMax := by
      by_cases hr : s.reached k = true
      · exact he ▸ hbelow k hk hr
      · rw [reached_iff_of_countKept hs] at hr
        omega
    have hfloor := slotFloor_ge ha k
    have htop := threshold_add_latMax_lt ha k
    obtain ⟨-, -, hw⟩ := (admitted_iff _).1 ha
    obtain ⟨hwidth, -⟩ := (widthAdmitted_iff _).1 hw
    have hnowrap : signedValue s.cfg.cntWidth (s.cnt + 1) = s.cnt + 1 :=
      signedValue_eq_self hwidth (by omega) (by omega)
    rw [hnowrap]
    exact (countInSlot_iff_of_deadline (s := { s with cnt := s.cnt + 1 }) hk).2 ⟨Int.le_add_one hmin, hlt⟩

/-- Acceptance loads the offset, the arrows up to SLOT0 keep it, each deadline's action hands its threshold on as the
next floor, and in `IDLE` the count is free. -/
theorem Effect.keeps_countKept (h : Effect s m t) (hm : s.timerMatches = true) (hs : s.countKept = true) :
    t.countKept = true := by
  obtain ⟨ha, ho, he, -⟩ := (countKept_iff s).1 hs
  cases h with
  | accept =>
    have hload : signedValue s.cfg.cntWidth s.cfg.offsetTicks = s.cfg.offsetTicks := signedValue_offset ha ho
    exact (countKept_iff _).2 ⟨ha, ho, signedValue_idem _ _, beq_iff_eq.2 hload⟩
  | handshake _ hq =>
    have hcnt : s.cnt = s.cfg.offsetTicks := cnt_of_countKept hs (.inl hq)
    exact (countKept_iff _).2 ⟨ha, ho, he, beq_iff_eq.2 hcnt⟩
  | arm hq =>
    have hcnt : s.cnt = s.cfg.offsetTicks := cnt_of_countKept hs (.inr hq)
    refine (countKept_iff _).2 ⟨ha, ho, he, (countBetween_iff _ _ _).2 ⟨hcnt.ge, ?_⟩⟩
    calc s.cnt ≤ 0 := hcnt.trans_le ho
      _ ≤ (threshold s.cfg 0 : Int) + s.cfg.latMax := by positivity
  | slot0 hq hr => exact countKept_next_deadline 0 hs (congrArg _ hq) hr rfl rfl rfl
  | slot1 hq hr => exact countKept_next_deadline 1 hs (congrArg _ hq) hr rfl rfl rfl
  | slot2 hq hr => exact countKept_next_deadline 2 hs (congrArg _ hq) hr rfl rfl rfl
  | slot3 hq hr => exact countKept_next_deadline 3 hs (congrArg _ hq) hr rfl rfl rfl
  | release hq hr => exact countKept_next_deadline 4 hs (congrArg _ hq) hr rfl rfl rfl
  | settle => exact (countKept_iff _).2 ⟨ha, ho, he, rfl⟩
  | aborted | finish | reset => exact (countKept_iff _).2 ⟨ha, ho, signedValue_idem _ _, rfl⟩
  | tick htick => exact countKept_tick hm hs htick
  | _ => exact hs

/-! ### The obligations -/

/-- Settles O46. -/
theorem everyStepKeepsTheCountInItsSlot : Obligations.EveryStepKeepsTheCountInItsSlot := by
  intro s t h
  obtain ⟨sch, n, he⟩ := step_effect_frame h
  exact he.keeps_countKept

/-- Settles O5. -/
theorem thresholdIsTheLeastTickCount : Obligations.ThresholdIsTheLeastTickCount := by
  refine ⟨fun c k hc n => ?_, by decide, by decide, by decide⟩
  exact ⟨threshold_le_iff hc k n, (threshold_le_iff hc k n).trans (le_elapsedMicros_iff hc _ n).symm⟩

/-- Settles O6: both sides are the inequality of R105 with the count multiplied out. -/
theorem reachedIsElapsedMicroseconds : Obligations.ReachedIsElapsedMicroseconds := by
  intro s k hc
  rw [reached_iff, threshold_le_iff hc, le_elapsedMicros_iff hc]

/-- Settles O7: the quotient of R106 is the number of ticks. -/
theorem offsetIsHalfAMicrosecondRoundedToZero : Obligations.OffsetIsHalfAMicrosecondRoundedToZero := by
  intro c hc
  obtain ⟨hp, -⟩ := (clockAdmitted_iff c).1 hc
  have hpos : 0 < 2 * c.prescale * 1000000 := by positivity
  exact ⟨c.clkHz / (2 * c.prescale * 1000000), rfl, Nat.div_mul_le_self _ _,
    (Nat.div_lt_iff_lt_mul hpos).1 (Nat.lt_succ_self _)⟩

/-- Settles O8: `bmod` by `2 ^ CNT_WIDTH` is the balanced remainder. -/
theorem elapsedIsTheSignedReading : Obligations.ElapsedIsTheSignedReading := by
  intro s hw
  have hpos : 0 < 2 ^ s.cfg.cntWidth := by positivity
  have hhalf : (2 ^ s.cfg.cntWidth : Int) = 2 * 2 ^ (s.cfg.cntWidth - 1) := (mul_pow_sub_one hw.ne' 2).symm
  have hmin : -((2 ^ s.cfg.cntWidth : Nat) / 2 : Int) ≤ s.elapsed := Int.le_bmod hpos
  have hmax : s.elapsed < ((2 ^ s.cfg.cntWidth : Nat) + 1 : Int) / 2 := Int.bmod_lt hpos
  have hdvd : ((2 ^ s.cfg.cntWidth : Nat) : Int) ∣ s.elapsed - s.cnt := Int.dvd_bmod_sub_self
  push_cast at hmin hmax hdvd
  exact ⟨by omega, by omega, hdvd⟩

/-- Settles O31: a due action records a fault in SLOT0 under a host pull alone. -/
theorem deadlineStateHoldsUntilReached : Obligations.DeadlineStateHoldsUntilReached := by
  rintro s q k hqk hrun rfl
  have hk : deadlineOf s.seqState = some k := (deadlineOf_eq_some_iff _ _).2 hqk
  have hafter : after .seq s = whenReached k (deadlineAction k) s :=
    (after_seq_busy (ne_idle_of_deadline hk)).trans (seqBody_of_deadline hk)
  refine ⟨reached_iff s k, fun hbefore => ?_, fun hdue hfree => ?_⟩
  · have hr : ¬s.reached k = true := by
      rw [reached_iff]
      exact hbefore.not_ge
    exact step_withMove_eq_of_after hrun (hafter.trans (if_neg hr)) (faultOf_of_running hrun)
  · have hr : s.reached k = true := (reached_iff s k).2 hdue
    have hact : after .seq s = deadlineAction k s := hafter.trans (if_pos hr)
    refine ⟨_, step_withMove_eq_of_after hrun hact ?_, mayGo_deadlineAction hk hr⟩
    rw [Option.eq_none_iff_forall_ne_some]
    intro f hf
    obtain ⟨-, ⟨-, hq, hpull, -⟩ | ⟨hhost, -⟩⟩ :=
      (effect_after .seq s).fault_cases (faultOf_of_running hrun) (hact ▸ hf)
    · simp [hfree hq] at hpull
    · cases hhost

/-- Settles O33: nothing a fault is read from changes with the count. -/
theorem timerTick : Obligations.TimerTick := by
  intro s hrun
  obtain ⟨hadm, -⟩ := (running_iff s).1 hrun
  obtain ⟨-, -, hw⟩ := (admitted_iff _).1 hadm
  obtain ⟨hwidth, -⟩ := (widthAdmitted_iff _).1 hw
  refine ⟨fun ht hheld => ?_, fun hmin hmax => signedValue_eq_self hwidth (by omega) hmax, fun ht => ?_⟩
  · have htick : s.tickAllowed = true := (tickAllowed_iff s).2 ⟨ht, hheld⟩
    exact step_withMove_eq_of_after hrun (timerTick_of_allowed htick) (faultOf_of_running hrun)
  · exact step_timer_of_held hrun (by simp [tickAllowed_iff, ht])

/-- Settles O34: with `LAT_MAX = 0` the bound is the threshold that has been reached. -/
theorem dueActionHoldsTheTimer : Obligations.DueActionHoldsTheTimer := by
  intro s k hrun _ hk hr
  have hdue : (threshold s.cfg k : Int) ≤ s.elapsed := (reached_iff s k).1 hr
  have hheld (hlate : (threshold s.cfg k : Int) + s.cfg.latMax ≤ s.elapsed) : step (s.withMove .timer) = .next s :=
    step_timer_of_held hrun (not_tickAllowed_of_late hk hr hlate)
  exact ⟨hheld, fun hlat => hheld (by simpa [hlat] using hdue)⟩

/-- Settles O47: the deadline bounds the count from below, the invariant from above. -/
theorem deadlineActionsHappenOnTime : Obligations.DeadlineActionsHappenOnTime := by
  intro s t k h _ hs hk hne hm
  obtain ⟨sch, n, he⟩ := step_effect_frame h
  obtain ⟨hr, hcnt⟩ := he.leaves_deadline hm hk hne
  have hmin : (threshold s.cfg k : Int) ≤ s.cnt := (reached_iff_of_countKept hs).1 hr
  obtain ⟨-, hmax⟩ := count_bounds_of_countKept hs hk
  exact ⟨hcnt, hmin, hmax, fun hlat => by omega⟩

end Sys2Proof.Machine

/-! ## The transmitter (42_transmitter.md) -/

namespace Sys2Proof.Machine

variable {s t : State} {m : Move} {k : Fin 6}

/-! ### The levels of the frame (R135, R140) -/

/-- What the frame's levels say of the states before SLOT0's action and after RELEASE's. -/
theorem writeReleased_of_frameLevels (hs : s.frameLevels = true)
    (hq : s.seqState ∈ [SeqState.idle, .waitHs, .arm, .slot0, .settle, .waitRearm]) : s.writeReleased = true := by
  simp only [List.mem_cons, List.not_mem_nil, or_false] at hq
  rcases hq with hq | hq | hq | hq | hq | hq <;>
    simp_all [State.frameLevels]

/-- Each arrow into a slot drives the levels of that slot, the last slot's sense bit outlives RELEASE, and the arrows
between the states of a released line write neither its direction nor its latch. -/
theorem Effect.keeps_frameLevels (h : Effect s m t) (hs : s.frameLevels = true) : t.frameLevels = true := by
  cases h with
  | accept _ _ hq | handshake _ hq =>
    have hr : s.writeReleased = true := writeReleased_of_frameLevels hs (by simp [hq])
    exact hr
  | aborted _ hq =>
    have hr : s.writeReleased = true := writeReleased_of_frameLevels hs (by simp [hq])
    exact Bool.and_eq_true_iff.2 ⟨hr, rfl⟩
  | arm hq | finish _ hq =>
    have hr : s.writeReleased = true := writeReleased_of_frameLevels hs (by simp [hq])
    exact Bool.and_eq_true_iff.2 ⟨hr, beq_self_eq_true _⟩
  | slot0 => simp [State.frameLevels, State.drivesPair, slot0Action]
  | slot1 hq | slot2 hq | slot3 hq =>
    have hd : s.wrDir = true := wrDir_of_frameLevels hs (by simp [hq])
    simp [State.frameLevels, State.drivesPair, slot1Action, slot2Action, slot3Action, hd]
  | release hq =>
    simp only [State.frameLevels, hq, State.drivesPair, Bool.and_eq_true] at hs
    obtain ⟨⟨-, hsense⟩, -⟩ := hs
    exact hsense
  | settle hq =>
    simp only [State.frameLevels, hq] at hs
    exact hs
  | reset => rfl
  | _ => exact hs

/-! ### The arrows of the state graph (R120) -/

/-- A move other than a reset event changes `STATE` only along an arrow whose guard holds, and that move is `SEQ`'s. -/
theorem Effect.arrow (h : Effect s m t) (hm : m ≠ .reset) (hne : t.seqState ≠ s.seqState) :
    m = .seq ∧ s.mayGo t.seqState = true := by
  cases h with
  | accept _ _ hq hp hv => exact ⟨rfl, by simp [State.mayGo, hq, accepted, State.cmdValid, hp, hv]⟩
  | aborted _ hq ha => exact ⟨rfl, by simp [State.mayGo, hq, abortExit, ha]⟩
  | handshake _ hq ha hl => exact ⟨rfl, by simp [State.mayGo, hq, ha, hl]⟩
  | arm hq => exact ⟨rfl, by simp [State.mayGo, hq, armAction]⟩
  | slot0 hq hr => exact ⟨rfl, mayGo_deadlineAction (k := 0) (congrArg _ hq) hr⟩
  | slot1 hq hr => exact ⟨rfl, mayGo_deadlineAction (k := 1) (congrArg _ hq) hr⟩
  | slot2 hq hr => exact ⟨rfl, mayGo_deadlineAction (k := 2) (congrArg _ hq) hr⟩
  | slot3 hq hr => exact ⟨rfl, mayGo_deadlineAction (k := 3) (congrArg _ hq) hr⟩
  | release hq hr => exact ⟨rfl, mayGo_deadlineAction (k := 4) (congrArg _ hq) hr⟩
  | settle hq hr => exact ⟨rfl, mayGo_deadlineAction (k := 5) (congrArg _ hq) hr⟩
  | finish _ hq hc => exact ⟨rfl, by simpa [State.mayGo, hq, finishAction] using hc⟩
  | reset => exact absurd rfl hm
  | _ => exact absurd rfl hne

/-! ### The acceptance step (R121) -/

/-- The word of a presented command and what taking it leaves (R162). -/
theorem fetch_presented {word : CmdWord} {rest : List CmdWord} (hv : s.presenting = true)
    (hp : s.program = word :: rest) : s.fetch = some (word, { s with program := rest, presenting := false }) := by
  simp only [State.fetch, hv, hp]

theorem afterCommand_idle (hq : s.seqState = .idle) (i : Instr) : ∃ md d, afterCommand i s = accepted md d s := by
  cases i <;> exact ⟨_, _, if_pos (by simp [State.cmdReady, State.busy, hq])⟩

theorem afterCommand_busy (hq : s.seqState ≠ .idle) (i : Instr) : afterCommand i s = s :=
  if_neg (by simp [State.cmdReady, State.busy, hq])

/-- `SEQ` in an idle block accepts the word on the port (R121). -/
theorem after_seq_fetched {word : CmdWord} {taken : State} (hq : s.seqState = .idle)
    (hf : s.fetch = some (word, taken)) :
    after .seq s = accepted (modeOfBit (word.getLsbD 8)) (word.extractLsb' 0 8) taken := by
  have ha : after .seq s = afterCommand (decode word) taken := by simp only [after, hq, hf]
  obtain ⟨-, rest, -, rfl⟩ := fetch_some hf
  rw [ha, afterCommand_decode (by exact hq)]

/-- It has no step where no word is presented (R201). -/
theorem after_seq_unfetched (hq : s.seqState = .idle) (hf : s.fetch = none) : after .seq s = s := by
  simp only [after, seqBody, hq, hf]

/-- The block that has accepted `word`, with `rest` left on the program; the offset is cut to the counter's width. -/
def State.withAccepted (s : State) (word : CmdWord) (rest : List CmdWord) : State :=
  { s with
    mode := modeOfBit (word.getLsbD 8), data := word.extractLsb' 0 8, gie := false
    cnt := signedValue s.cfg.cntWidth s.cfg.offsetTicks, outcome := .none, seqState := .waitHs
    program := rest, presenting := false }

/-- It may step if the block could. -/
theorem withAccepted_running (hrun : s.running = true) (word : CmdWord) (rest : List CmdWord) :
    (s.withAccepted word rest).running = true := by
  obtain ⟨hadm, hf⟩ := (running_iff s).1 hrun
  exact (running_iff _).2 ⟨hadm, faultOf_of_same_line hf rfl rfl rfl⟩

/-- The acceptance step, whatever the offset. -/
theorem step_accept {word : CmdWord} {rest : List CmdWord} (hrun : s.running = true) (hq : s.seqState = .idle)
    (hv : s.presenting = true) (hp : s.program = word :: rest) :
    step (s.withMove .seq) = .next (s.withAccepted word rest) := by
  have ha : after .seq s = s.withAccepted word rest := after_seq_fetched hq (fetch_presented hv hp)
  exact step_withMove_eq_of_after hrun ha (faultOf_of_running (withAccepted_running hrun word rest))

/-! ### The polls of a line at a level (R122, R131) -/

theorem handshakePoll_level {v : Bool} (hl : s.wrLevel = .level v) :
    handshakePoll s = if s.abort then abortExit s else if v then s.goto .arm else s := by
  simp only [handshakePoll, wrRead_level hl]

theorem rearmPoll_level {v : Bool} (hl : s.wrLevel = .level v) :
    rearmPoll s = if !v || s.abort then finishAction s else s := by
  simp only [rearmPoll, wrRead_level hl]

/-! ### The deadline actions (R125 to R130) -/

/-- `SEQ` performs the action of a deadline that is reached (R107). -/
theorem after_seq_due (hk : deadlineOf s.seqState = some k) (hr : s.reached k = true) :
    after .seq s = deadlineAction k s := by
  rw [after_seq_busy (ne_idle_of_deadline hk), seqBody_of_deadline hk]
  exact if_pos hr

/-- Its step leads there: SLOT0's action alone can record a fault, under a host pull (R125). -/
theorem step_due (hrun : s.running = true) (hk : deadlineOf s.seqState = some k) (hr : s.reached k = true)
    (hfree : k = 0 → s.hostPull = false) : step (s.withMove .seq) = .next (deadlineAction k s) := by
  have hs : s.faultOf = none := faultOf_of_running hrun
  refine step_withMove_eq_of_after hrun (after_seq_due hk hr) ?_
  match k with
  | 0 => exact faultOf_none (fun _ => hfree rfl) rfl
  | 1 | 2 | 3 | 5 => exact faultOf_of_same_line hs rfl rfl rfl
  | 4 => exact faultOf_none nofun rfl

end Sys2Proof.Machine

/-! ### The obligations on single steps

In a namespace of their own, since the model's actions bear the names of theirs. -/

namespace Sys2Proof.Machine.Transmitter

/-- Settles O45. -/
theorem everyStepKeepsTheFrameLevels : Obligations.EveryStepKeepsTheFrameLevels := by
  intro s t h
  obtain ⟨sch, n, he⟩ := step_effect_frame h
  exact he.keeps_frameLevels

/-- Settles O48. -/
theorem onlyTheGraphsArrowsAreTaken : Obligations.OnlyTheGraphsArrowsAreTaken := by
  intro s t h
  obtain ⟨sch, n, he⟩ := step_effect_frame h
  exact he.arrow

/-- Settles O38: every move is performed under the code's fault, and a state with that fault is never an answer. -/
theorem unusedCodeStopsEveryAgent : Obligations.UnusedCodeStopsEveryAgent := by
  refine ⟨fun s offset ha hline hq => ?_, fun s t offset h hq => ?_⟩
  · rw [step_eq_checked, checked_eq_fault_iff, nextMove_frame]
    exact ⟨ha, .inl (faultOf_badCode _ hline ((badCode_eq_true_iff _).2 ⟨offset, hq⟩))⟩
  · obtain ⟨-, hf, -⟩ := (step_eq_next_iff s t).1 h
    obtain ⟨-, hcode⟩ := (faultOf_eq_none_iff t).1 hf
    simp [(badCode_eq_true_iff t).2 ⟨offset, hq⟩] at hcode

/-- Settles O15: an idle block accepts and a busy one does nothing. -/
theorem txlAndTxcWriteNoLine : Obligations.TxlAndTxcWriteNoLine := by
  intro i s t h
  rw [exec_eq_checked, checked_eq_next_iff] at h
  obtain ⟨-, -, rfl⟩ := h
  by_cases hq : s.seqState = .idle
  · obtain ⟨md, d, ha⟩ := afterCommand_idle hq i
    rw [ha]
    exact ⟨rfl, fun hbusy => absurd hq hbusy, fun _ => ⟨rfl, rfl⟩⟩
  · rw [afterCommand_busy hq]
    exact ⟨rfl, fun _ => rfl, fun hidle => absurd hidle hq⟩

/-- Settles O18. -/
theorem stepRunsTheDecodedCommand : Obligations.StepRunsTheDecodedCommand := by
  intro s word rest hq hv hp
  obtain ⟨hstep, -⟩ := stepPerformsTheNextMove s
  rw [hstep]
  simp only [perform, seqStep, hq, fetch_presented hv hp]

/-- Settles O19: an offset that fits the counter is loaded as it is. -/
theorem acceptanceLatchesTheWord : Obligations.AcceptanceLatchesTheWord := by
  intro s word rest hrun hq hv hp ho
  obtain ⟨hadm, -⟩ := (running_iff s).1 hrun
  have hload : signedValue s.cfg.cntWidth s.cfg.offsetTicks = s.cfg.offsetTicks := signedValue_offset_of_lt hadm ho
  rw [step_accept hrun hq hv hp, State.withAccepted, hload]
  rfl

/-- Settles O21: the poll of the level read, abort first. -/
theorem handshakePoll : Obligations.HandshakePoll := by
  intro s h hrun hq hl
  have hbusy : s.seqState ≠ .idle := by simp [hq]
  have hb : seqBody s = Machine.handshakePoll s := by simp only [seqBody, hq]
  rw [handshakePoll_level hl] at hb
  refine ⟨fun ha => ?_, fun ha hh => ?_, fun ha hh => ?_⟩
  · exact step_seqBody_of_same_line hrun hbusy (hb.trans (if_pos ha)) rfl rfl rfl
  · rw [ha, hh] at hb
    exact step_seqBody_of_same_line hrun hbusy hb rfl rfl rfl
  · rw [ha, hh] at hb
    exact step_withMove_eq_of_after hrun ((after_seq_busy hbusy).trans hb) (faultOf_of_running hrun)

/-- Settles O24. -/
theorem armAction : Obligations.ArmAction := by
  intro s hrun hq
  have hb : seqBody s = Machine.armAction s := by simp only [seqBody, hq]
  have hpol : armPol s.mode = decide (s.mode = .commandMode) := by cases s.mode <;> rfl
  rw [← hpol]
  exact step_seqBody_of_same_line hrun (by simp [hq]) hb rfl rfl rfl

/-- Settles O25: the action drives the line, which is contention exactly under a host pull. -/
theorem slot0Action : Obligations.Slot0Action := by
  intro s hrun hq hr
  have hk : deadlineOf s.seqState = some 0 := congrArg _ hq
  refine ⟨fun hp => step_due hrun hk hr fun _ => hp, fun hp => ?_⟩
  obtain ⟨hadm, -⟩ := (running_iff s).1 hrun
  rw [step_withMove, after_seq_due hk hr, checked_eq_fault_iff]
  exact ⟨hadm, .inr ⟨faultOf_of_running hrun, faultOf_contention _ rfl hp⟩⟩

/-- Settles O26. -/
theorem slot1Action : Obligations.Slot1Action := by
  intro s hrun hq hr
  exact step_due hrun (congrArg _ hq) hr nofun

/-- Settles O27. -/
theorem slot2Action : Obligations.Slot2Action := by
  intro s hrun hq hr
  exact step_due hrun (congrArg _ hq) hr nofun

/-- Settles O28. -/
theorem slot3Action : Obligations.Slot3Action := by
  intro s hrun hq hr
  exact step_due hrun (congrArg _ hq) hr nofun

/-- Settles O29. -/
theorem releaseAction : Obligations.ReleaseAction := by
  intro s hrun hq hr
  exact step_due hrun (congrArg _ hq) hr nofun

/-- Settles O30. -/
theorem settleAction : Obligations.SettleAction := by
  intro s hrun hq hr
  exact step_due hrun (congrArg _ hq) hr nofun

/-- Settles O32: the poll of the level read, which a low level or abort ends. -/
theorem rearmPollAndFinish : Obligations.RearmPollAndFinish := by
  intro s h hrun hq hl
  have hbusy : s.seqState ≠ .idle := by simp [hq]
  have hb : seqBody s = rearmPoll s := by simp only [seqBody, hq]
  rw [rearmPoll_level hl] at hb
  refine ⟨fun hend => ?_, fun hh ha => ?_⟩
  · have hfinish : (!h || s.abort) = true := by simpa using hend
    rw [← termPol_eq_decide]
    exact step_seqBody_of_same_line hrun hbusy (hb.trans (if_pos hfinish)) rfl rfl rfl
  · rw [hh, ha] at hb
    exact step_withMove_eq_of_after hrun ((after_seq_busy hbusy).trans hb) (faultOf_of_running hrun)

end Sys2Proof.Machine.Transmitter

/-! ### Blocks that differ in the mode (R136) -/

namespace Sys2Proof.Machine

variable {s : State} {a b a' b' : State}

/-- `checked` commutes with a change of the state reached that the fault does not see. -/
theorem checked_mapNext {f : State → State} (hf : (f a).faultOf = a.faultOf) :
    checked s (f a) = mapNext f (checked s a) := by
  simp only [checked, hf]
  cases admitted s.cfg <;> cases s.faultOf <;> cases a.faultOf <;> rfl

/-- The states between SLOT0's action and the finish step, in which sense does not depend on the mode. -/
def senseIsData (q : SeqState) : Prop :=
  q ∈ [SeqState.slot1, .slot2, .slot3, .release, .settle, .waitRearm]

/-- Another mode and another level on the sense line. -/
def State.withModeAndSense (s : State) (md : Mode) (v : Bool) : State := { s with mode := md, senseOut := v }

theorem modeTwins_iff :
    modeTwins a b ↔ ∃ md v, b = a.withModeAndSense md v ∧ (senseIsData a.seqState → v = a.senseOut) := by
  constructor
  · rintro ⟨hb, hsense⟩
    exact ⟨b.mode, b.senseOut, hb, hsense⟩
  · rintro ⟨md, v, rfl, hsense⟩
    exact ⟨rfl, hsense⟩

theorem modeTwins.seqState_eq (h : modeTwins a b) : b.seqState = a.seqState := by
  rw [h.1]

theorem modeTwins.cfg_eq (h : modeTwins a b) : b.cfg = a.cfg := by
  rw [h.1]

theorem modeTwins.abort_eq (h : modeTwins a b) : b.abort = a.abort := by
  rw [h.1]
  rfl

theorem modeTwins.faultOf_eq (h : modeTwins a b) : b.faultOf = a.faultOf := by
  rw [h.1]
  rfl

/-- Twins before and after a step are twin outcomes. -/
theorem twinOutcomes_checked (h : modeTwins a b) (h' : modeTwins a' b') :
    twinOutcomes (checked a a') (checked b b') := by
  simp only [checked, h.cfg_eq, h.faultOf_eq, h'.faultOf_eq]
  cases admitted a.cfg with
  | false => exact rfl
  | true =>
    cases a.faultOf with
    | some f => exact rfl
    | none =>
      cases a'.faultOf with
      | some f => exact rfl
      | none => exact h'

section Twin

variable (s) (md : Mode) (v : Bool)

theorem nextMove_withModeAndSense :
    (s.withModeAndSense md v).nextMove = (s.nextMove.1, s.nextMove.2.withModeAndSense md v) := by
  simp only [State.nextMove, State.withModeAndSense]
  split <;> rfl

theorem wrRead_withModeAndSense :
    (s.withModeAndSense md v).wrRead = (s.wrRead.1, s.wrRead.2.withModeAndSense md v) := by
  have hl : (s.withModeAndSense md v).wrLevel = s.wrLevel := rfl
  simp only [State.wrRead, hl]
  split <;> rfl

theorem fetch_withModeAndSense :
    (s.withModeAndSense md v).fetch =
      s.fetch.map fun wordTaken => (wordTaken.1, wordTaken.2.withModeAndSense md v) := by
  simp only [State.fetch, State.withModeAndSense]
  split <;> rfl

end Twin

/-- The next move is the same, and it is performed in twins. -/
theorem modeTwins.nextMove (h : modeTwins a b) :
    b.nextMove.1 = a.nextMove.1 ∧ modeTwins a.nextMove.2 b.nextMove.2 := by
  obtain ⟨md, v, rfl, hsense⟩ := modeTwins_iff.1 h
  rw [nextMove_withModeAndSense]
  refine ⟨rfl, modeTwins_iff.2 ⟨md, v, rfl, ?_⟩⟩
  rw [nextMove_frame]
  exact hsense

/-- Twins read the same level of the write line, and are twins after the read. -/
theorem modeTwins.wrRead (h : modeTwins a b) : b.wrRead.1 = a.wrRead.1 ∧ modeTwins a.wrRead.2 b.wrRead.2 := by
  obtain ⟨md, v, rfl, hsense⟩ := modeTwins_iff.1 h
  rw [wrRead_withModeAndSense]
  refine ⟨rfl, modeTwins_iff.2 ⟨md, v, rfl, ?_⟩⟩
  rw [wrRead_frame]
  exact hsense

/-- An action behind its deadline, which twins reach at the same count. -/
theorem modeTwins.whenReached {action : State → State} (k : Fin 6) (h : modeTwins a b)
    (hact : modeTwins (action a) (action b)) : modeTwins (whenReached k action a) (whenReached k action b) := by
  have hr : b.reached k = a.reached k := by
    rw [h.1]
    rfl
  unfold Machine.whenReached
  rw [hr]
  split
  · exact hact
  · exact h

/-- The handshake poll looks at neither field, and its exits lead to states in which sense is free. -/
theorem modeTwins.handshakePoll (h : modeTwins a b) : modeTwins (handshakePoll a) (handshakePoll b) := by
  obtain ⟨hl, hpolled⟩ := h.wrRead
  obtain ⟨md, v, hb, -⟩ := modeTwins_iff.1 hpolled
  simp only [Machine.handshakePoll, hl, h.abort_eq]
  split_ifs
  · rw [hb]
    exact ⟨rfl, nofun⟩
  · rw [hb]
    exact ⟨rfl, nofun⟩
  · exact hpolled

/-- The re-arm poll looks at neither field, and its finish leads to IDLE with each block's own polarity. -/
theorem modeTwins.rearmPoll (h : modeTwins a b) : modeTwins (rearmPoll a) (rearmPoll b) := by
  obtain ⟨hl, hpolled⟩ := h.wrRead
  obtain ⟨md, v, hb, -⟩ := modeTwins_iff.1 hpolled
  simp only [Machine.rearmPoll, hl, h.abort_eq]
  split_ifs
  · rw [hb]
    exact ⟨rfl, nofun⟩
  · exact hpolled

/-- ARM drives each block's own polarity, the slots drive the byte, RELEASE and SETTLE leave sense. -/
theorem modeTwins.seqBody (h : modeTwins a b) : modeTwins (seqBody a) (seqBody b) := by
  simp only [Machine.seqBody, h.seqState_eq]
  cases hq : a.seqState with
  | idle | unused => exact h
  | waitHs => exact h.handshakePoll
  | waitRearm => exact h.rearmPoll
  | arm =>
    rw [h.1]
    exact ⟨rfl, nofun⟩
  | slot0 | slot1 | slot2 | slot3 =>
    refine h.whenReached _ ?_
    rw [h.1]
    exact ⟨rfl, fun _ => rfl⟩
  | release | settle =>
    have hsense : b.senseOut = a.senseOut := h.2 (by simp [hq])
    refine h.whenReached _ ?_
    rw [h.1]
    exact ⟨rfl, fun _ => hsense⟩

/-- Every move leads twins to twins. -/
theorem modeTwins.after (m : Move) (h : modeTwins a b) : modeTwins (after m a) (after m b) := by
  cases m with
  | seq =>
    by_cases hq : a.seqState = .idle
    · have hqb : b.seqState = .idle := h.seqState_eq.trans hq
      obtain ⟨md, v, rfl, -⟩ := modeTwins_iff.1 h
      have hfetch := fetch_withModeAndSense a md v
      cases hf : a.fetch with
      | none =>
        rw [hf] at hfetch
        rw [after_seq_unfetched hq hf, after_seq_unfetched hqb hfetch]
        exact h
      | some wordTaken =>
        rw [hf] at hfetch
        rw [after_seq_fetched hq hf, after_seq_fetched hqb hfetch]
        exact ⟨rfl, nofun⟩
    · have hqb : b.seqState ≠ .idle := h.seqState_eq ▸ hq
      rw [after_seq_busy hq, after_seq_busy hqb]
      exact h.seqBody
  | timer =>
    obtain ⟨md, v, rfl, hsense⟩ := modeTwins_iff.1 h
    have htick : (a.withModeAndSense md v).tickAllowed = a.tickAllowed := rfl
    simp only [Machine.after, State.timerTick, htick]
    split
    · exact ⟨rfl, hsense⟩
    · exact h
  | host | motor =>
    obtain ⟨md, v, rfl, hsense⟩ := modeTwins_iff.1 h
    exact ⟨rfl, hsense⟩
  | caller =>
    obtain ⟨md, v, rfl, hsense⟩ := modeTwins_iff.1 h
    have hp : (a.withModeAndSense md v).program = a.program := rfl
    simp only [Machine.after, State.callerStep, hp]
    split
    · exact h
    · exact ⟨rfl, hsense⟩
  | system =>
    obtain ⟨md, v, rfl, hsense⟩ := modeTwins_iff.1 h
    have hbusy : (a.withModeAndSense md v).busy = a.busy := rfl
    simp only [Machine.after, State.systemStep, hbusy]
    split
    · exact h
    · exact ⟨rfl, hsense⟩
  | reset =>
    rw [h.1]
    exact ⟨rfl, fun _ => rfl⟩

theorem modeTwins.step (h : modeTwins a b) : twinOutcomes (step a) (step b) := by
  obtain ⟨hm, hnext⟩ := h.nextMove
  rw [step_eq_checked, step_eq_checked, hm]
  exact twinOutcomes_checked hnext (hnext.after _)

/-- A step other than a reset event leaves sense in IDLE, WAIT_HS and ARM, ARM's action apart. -/
theorem senseOut_eq_or_arm (h : step a = .next a') (hm : a.nextMove.1 ≠ .reset)
    (hq : a.seqState ∈ [SeqState.idle, .waitHs, .arm]) :
    a'.senseOut = a.senseOut ∨ (a.seqState = .arm ∧ a'.seqState = .slot0) := by
  refine or_iff_not_imp_left.2 fun hne => ?_
  obtain ⟨-, hpair⟩ := onlyArmSlotsAndFinishWriteSense a a' h hm hne
  simp only [List.mem_cons, List.not_mem_nil, or_false, Prod.mk.injEq] at hpair hq
  rcases hpair with hpair | ⟨hs, -⟩ | ⟨hs, -⟩ | ⟨hs, -⟩ | ⟨hs, -⟩ | ⟨hs, -⟩
  · exact hpair
  all_goals simp [hs] at hq

/-- A reset event gives sense the level of the configuration. -/
theorem senseOut_of_reset (h : step a = .next a') (hm : a.nextMove.1 = .reset) :
    a'.senseOut = a.cfg.senseReset := by
  obtain ⟨sch, n, he⟩ := step_effect_frame h
  rw [hm] at he
  cases he
  rfl

/-- TXC of a byte is TXL of it with the mode replaced. -/
theorem exec_txc (imm8 : Byte) (s : State) : exec (.txc imm8) s =
    mapNext (fun t => { t with mode := if s.seqState = .idle then .commandMode else t.mode })
      (exec (.txl imm8) s) := by
  rw [exec_eq_checked, exec_eq_checked, ← checked_mapNext rfl]
  by_cases hq : s.seqState = .idle
  · have hready : s.cmdReady = true := by simp [State.cmdReady, State.busy, hq]
    simp only [afterCommand, hready, hq, if_true]
    rfl
  · simp only [afterCommand_busy hq, if_neg hq]

/-- Settles O54: every move leads twins to twins; up to ARM's action a step leaves both blocks' sense, or resets both. -/
theorem modesTakeTheSameSteps : Obligations.ModesTakeTheSameSteps := by
  refine ⟨exec_txc, fun a b h => h.step, fun a b a' b' h ha hb hq hsense => ?_⟩
  obtain ⟨hm, -⟩ := h.nextMove
  have hqb := h.seqState_eq
  have hnext : modeTwins a' b' := by
    have htwins := h.step
    rw [ha, hb] at htwins
    exact htwins
  by_cases hreset : a.nextMove.1 = .reset
  · left
    rw [senseOut_of_reset ha hreset, senseOut_of_reset hb (hm.trans hreset), h.cfg_eq]
  · rcases senseOut_eq_or_arm ha hreset hq with hsa | harm
    · rcases senseOut_eq_or_arm hb (hm ▸ hreset) (hqb ▸ hq) with hsb | harm
      · exact .inl (by rw [hsa, hsb, hsense])
      · rw [hqb, hnext.seqState_eq] at harm
        exact .inr harm
    · exact .inr harm

end Sys2Proof.Machine

/-! ### Runs of scheduled moves -/

namespace Sys2Proof.Machine

variable {s t u : State} {k : Fin 6} {m : Move} {ms ms' : List Move}

/-- The moves `ms`, scheduled first, lead from `s` to `t`, whatever is scheduled after them. -/
def Leads (ms : List Move) (s t : State) : Prop :=
  ∀ sch, run ms.length { s with schedule := ms ++ sch } = .next { t with schedule := sch }

theorem Leads.nil : Leads [] s s := fun _ => rfl

theorem Leads.single (h : ∀ sch, step ({ s with schedule := sch }.withMove m) = .next { t with schedule := sch }) :
    Leads [m] s t :=
  fun sch => run_succ (h sch)

theorem Leads.append (h : Leads ms s t) (h' : Leads ms' t u) : Leads (ms ++ ms') s u := by
  intro sch
  rw [List.length_append, List.append_assoc, run_add (h _)]
  exact h' sch

theorem Leads.cons (h : Leads [m] s t) (h' : Leads ms t u) : Leads (m :: ms) s u :=
  h.append h'

/-- A move without effect has none however often it is made. -/
theorem Leads.replicate (h : Leads [m] s s) : ∀ n, Leads (List.replicate n m) s s
  | 0 => .nil
  | n + 1 => h.cons (h.replicate n)

/-! ### Ticks up to a deadline (R100, R107) -/

/-- Every threshold of an admitted configuration fits the counter (R110). -/
theorem signedValue_threshold {c : Config} (ha : admitted c = true) (k : Fin 6) :
    signedValue c.cntWidth (threshold c k) = threshold c k := by
  obtain ⟨-, -, hw⟩ := (admitted_iff c).1 ha
  obtain ⟨hwidth, -⟩ := (widthAdmitted_iff c).1 hw
  have htop := threshold_add_latMax_lt ha k
  have hrange : (0 : Int) ≤ 2 ^ (c.cntWidth - 1) := by positivity
  exact signedValue_eq_self hwidth (by omega) (by omega)

/-- Below its deadline a deadline state's count goes up by one tick, without wrapping. -/
theorem leads_tick (hrun : s.running = true) (ht : s.tmrRun = true) (hk : deadlineOf s.seqState = some k)
    (he : s.elapsed = s.cnt) (hlt : s.cnt < threshold s.cfg k) :
    Leads [.timer] s { s with cnt := s.cnt + 1 } ∧ signedValue s.cfg.cntWidth (s.cnt + 1) = s.cnt + 1 := by
  obtain ⟨hadm, -⟩ := (running_iff s).1 hrun
  obtain ⟨-, -, hw⟩ := (admitted_iff _).1 hadm
  obtain ⟨hwidth, -⟩ := (widthAdmitted_iff _).1 hw
  obtain ⟨hmin, -⟩ := elapsedIsTheSignedReading s hwidth
  have htop := threshold_add_latMax_lt hadm k
  obtain ⟨-, hnowrap, -⟩ := timerTick s hrun
  have hcnt : signedValue s.cfg.cntWidth (s.cnt + 1) = s.cnt + 1 := hnowrap (by omega) (by omega)
  have hbelow : ∀ j, deadlineOf s.seqState = some j → s.reached j = true →
      s.elapsed < (threshold s.cfg j : Int) + s.cfg.latMax := by
    intro j hj _
    obtain rfl : k = j := Option.some.inj (hk.symm.trans hj)
    omega
  refine ⟨.single fun sch => ?_, hcnt⟩
  obtain ⟨htick, -⟩ := timerTick { s with schedule := sch } hrun
  rw [← hcnt]
  exact htick ht hbelow

/-- `n` ticks from a count that is `n` short of the deadline. -/
theorem leads_ticks (hrun : s.running = true) (ht : s.tmrRun = true) (hk : deadlineOf s.seqState = some k)
    (he : s.elapsed = s.cnt) (n : Nat) (hn : s.cnt + n = threshold s.cfg k) :
    Leads (List.replicate n .timer) s { s with cnt := threshold s.cfg k } := by
  induction n generalizing s with
  | zero =>
    rw [← hn, Nat.cast_zero, add_zero]
    exact .nil
  | succ n ih =>
    push_cast at hn
    obtain ⟨htick, he'⟩ := leads_tick hrun ht hk he (by omega)
    exact htick.cons (ih (s := { s with cnt := s.cnt + 1 }) hrun ht hk he' (by simp only; omega))

/-- A due action as a run of one move. -/
theorem leads_due (hrun : s.running = true) (hk : deadlineOf s.seqState = some k) (hr : s.reached k = true)
    (hfree : k = 0 → s.hostPull = false) : Leads [.seq] s (deadlineAction k s) := by
  refine .single fun sch => ?_
  have hsch : deadlineAction k { s with schedule := sch } = { deadlineAction k s with schedule := sch } := by
    fin_cases k <;> rfl
  rw [← hsch]
  exact step_due (s := { s with schedule := sch }) hrun hk hr hfree

/-! ### The undisturbed frame (R140) -/

/-- The states of one frame, in the order of the trace. -/
def frameSeqState : Fin 7 → SeqState
  | 0 => .slot0
  | 1 => .slot1
  | 2 => .slot2
  | 3 => .slot3
  | 4 => .release
  | 5 => .settle
  | 6 => .waitRearm

/-- The block at row `j` of the trace of the command `word`, launched from `s` with `rest` left on the program. -/
def frameState (s : State) (word : CmdWord) (rest : List CmdWord) (j : Fin 7) : State :=
  let row := frameRow s.cfg (modeOfBit (word.getLsbD 8)) (word.extractLsb' 0 8) j
  { s with
    mode := modeOfBit (word.getLsbD 8), data := word.extractLsb' 0 8, gie := false, outcome := .none
    tmrRun := true, presenting := false, program := rest, seqState := frameSeqState j
    cnt := row.1, senseOut := row.2.1, wrDir := row.2.2.1, wrLatch := row.2.2.2 }

/-- What the launch position says. -/
theorem readyForFrame_iff (s : State) :
    s.readyForFrame = true ↔ s.running = true ∧ s.seqState = .idle ∧ s.lineParked = true ∧ s.timerMatches = true ∧
      s.hostPull = false ∧ s.abort = false ∧ s.cfg.offsetTicks ≤ 0 := by
  simp [State.readyForFrame, and_assoc]

theorem writeReleased_iff (s : State) : s.writeReleased = true ↔ s.wrDir = false ∧ s.wrLatch = true := by
  simp [State.writeReleased]

section Frame

variable {word : CmdWord} {rest : List CmdWord}

theorem frameState_running (hrun : s.running = true) (hp : s.hostPull = false) (j : Fin 7) :
    (frameState s word rest j).running = true := by
  obtain ⟨hadm, -⟩ := (running_iff s).1 hrun
  refine (running_iff _).2 ⟨hadm, faultOf_none (fun _ => hp) ?_⟩
  fin_cases j <;> rfl

theorem deadlineOf_frameSeqState (k : Fin 6) : deadlineOf (frameSeqState k.castSucc) = some k := by
  fin_cases k <;> rfl

/-- A row before a deadline stands at that slot's floor. -/
theorem frameState_cnt (k : Fin 6) : (frameState s word rest k.castSucc).cnt = slotFloor s.cfg k := by
  fin_cases k <;> rfl

/-- The action of deadline `k`, at its threshold, leads from row `k` to the next one. -/
theorem deadlineAction_frameState (k : Fin 6) :
    deadlineAction k { frameState s word rest k.castSucc with cnt := threshold s.cfg k } =
      frameState s word rest k.succ := by
  fin_cases k <;> rfl

theorem frameSegment_succ (c : Config) (k : Fin 6) :
    frameSegment c (k.val + 1) =
      List.replicate ((threshold c k : Int) - slotFloor c k).toNat .timer ++ [.seq] := by
  match k with
  | 0 => rfl
  | 1 | 2 | 3 | 4 | 5 => exact congrArg (List.replicate · _ ++ _) (Int.toNat_sub _ _).symm

theorem slotFloor_le_threshold {c : Config} (ha : admitted c = true) (ho : c.offsetTicks ≤ 0) (k : Fin 6) :
    slotFloor c k ≤ threshold c k := by
  cases k using Fin.cases with
  | zero => exact ho.trans (Int.natCast_nonneg _)
  | succ j => exact Int.ofNat_le.2 (threshold_mono ha j.castSucc_lt_succ.le)

/-- A floor of an admitted configuration whose offset is not positive fits the counter. -/
theorem signedValue_slotFloor {c : Config} (ha : admitted c = true) (ho : c.offsetTicks ≤ 0) (k : Fin 6) :
    signedValue c.cntWidth (slotFloor c k) = slotFloor c k := by
  cases k using Fin.cases with
  | zero => exact signedValue_offset ha ho
  | succ j => exact signedValue_threshold ha j.castSucc

/-- A segment of ticks and an action leads from row `k` to the next one. -/
theorem leads_frameSegment (hrun : s.running = true) (hp : s.hostPull = false) (ho : s.cfg.offsetTicks ≤ 0)
    (k : Fin 6) :
    Leads (frameSegment s.cfg (k.val + 1)) (frameState s word rest k.castSucc) (frameState s word rest k.succ) := by
  obtain ⟨hadm, -⟩ := (running_iff s).1 hrun
  have hrow : (frameState s word rest k.castSucc).running = true := frameState_running hrun hp _
  have hk : deadlineOf (frameState s word rest k.castSucc).seqState = some k := deadlineOf_frameSeqState k
  have hcnt : (frameState s word rest k.castSucc).cnt = slotFloor s.cfg k := frameState_cnt k
  have hfloor : signedValue s.cfg.cntWidth (slotFloor s.cfg k) = slotFloor s.cfg k := signedValue_slotFloor hadm ho k
  have hle : slotFloor s.cfg k ≤ threshold s.cfg k := slotFloor_le_threshold hadm ho k
  have helapsed : (frameState s word rest k.castSucc).elapsed = (frameState s word rest k.castSucc).cnt := by
    rw [State.elapsed, hcnt]
    exact hfloor
  have hleft : (frameState s word rest k.castSucc).cnt + ((threshold s.cfg k : Int) - slotFloor s.cfg k).toNat =
      threshold s.cfg k := by
    rw [hcnt, Int.toNat_of_nonneg (sub_nonneg.2 hle), add_sub_cancel]
  have hreached : { frameState s word rest k.castSucc with cnt := (threshold s.cfg k : Int) }.reached k = true :=
    (reached_iff _ _).2 (signedValue_threshold hadm k).ge
  rw [frameSegment_succ, ← deadlineAction_frameState]
  exact (leads_ticks hrow rfl hk helapsed _ hleft).append (leads_due hrow hk hreached fun _ => hp)

/-- The acceptance step as a run of one move. -/
theorem leads_accept (hrun : s.running = true) (hq : s.seqState = .idle) (hv : s.presenting = true)
    (hp : s.program = word :: rest) : Leads [.seq] s (s.withAccepted word rest) :=
  .single fun sch => step_accept (s := { s with schedule := sch }) hrun hq hv hp

/-- A released line is at the level the host gives it (R52). -/
theorem wrLevel_of_writeReleased (hr : s.writeReleased = true) : s.wrLevel = .level (!s.hostPull) := by
  obtain ⟨hd, hl⟩ := (writeReleased_iff s).1 hr
  cases hp : s.hostPull <;> simp only [State.wrLevel, hd, hl, hp] <;> rfl

/-- Acceptance, the handshake and ARM lead to row 0. -/
theorem leads_launch (hready : s.readyForFrame = true) (hv : s.presenting = true) (hp : s.program = word :: rest) :
    Leads (frameSegment s.cfg 0) s (frameState s word rest 0) := by
  obtain ⟨hrun, hq, hparked, -, hpull, habort, ho⟩ := (readyForFrame_iff s).1 hready
  obtain ⟨hadm, -⟩ := (running_iff s).1 hrun
  have hreleased : s.writeReleased = true := writeReleased_of_lineParked hparked (by simp [hq])
  obtain ⟨hd, hl⟩ := (writeReleased_iff s).1 hreleased
  have hlevel : s.wrLevel = .level true := by simp [wrLevel_of_writeReleased hreleased, hpull]
  have hrow : frameRow s.cfg (modeOfBit (word.getLsbD 8)) (word.extractLsb' 0 8) 0 =
      (signedValue s.cfg.cntWidth s.cfg.offsetTicks, decide (modeOfBit (word.getLsbD 8) = .commandMode),
        s.wrDir, s.wrLatch) := by
    rw [signedValue_offset hadm ho, hd, hl]
    cases word.getLsbD 8 <;> rfl
  have hrun' : (s.withAccepted word rest).running = true := withAccepted_running hrun word rest
  refine (leads_accept hrun hq hv hp).cons
    (.cons (t := { s.withAccepted word rest with seqState := .arm }) (.single fun sch => ?_) (.single fun sch => ?_))
  · obtain ⟨-, hhigh, -⟩ := Transmitter.handshakePoll { s.withAccepted word rest with schedule := sch } true
      hrun' rfl hlevel
    exact hhigh habort rfl
  · rw [frameState, hrow]
    exact Transmitter.armAction { s.withAccepted word rest with seqState := .arm, schedule := sch } hrun' rfl

/-- The moves up to row `j` lead there. -/
theorem leads_frame (hready : s.readyForFrame = true) (hv : s.presenting = true) (hp : s.program = word :: rest)
    (j : Fin 7) : Leads (frameMoves s.cfg (j.val + 1)) s (frameState s word rest j) := by
  obtain ⟨hrun, -, -, -, hpull, -, ho⟩ := (readyForFrame_iff s).1 hready
  induction j using Fin.induction with
  | zero => exact leads_launch hready hv hp
  | succ k ih => exact ih.append (leads_frameSegment hrun hpull ho k)

/-- From row 6, the host's pull and the finish step end the command (R131, R132). -/
theorem leads_finish (hrun : s.running = true) (hpull : s.hostPull = false) :
    Leads (frameSegment s.cfg 7) (frameState s word rest 6) { s with
      senseOut := !word.getLsbD 8, wrDir := false, wrLatch := true, tmrRun := false
      cnt := signedValue s.cfg.cntWidth (Config.freeCnt s.draws), draws := s.draws + 1
      gie := true, seqState := .idle, data := word.extractLsb' 0 8
      mode := modeOfBit (word.getLsbD 8), outcome := .sent
      hostPull := true, presenting := false, program := rest } := by
  have hterm : (!word.getLsbD 8) = decide (modeOfBit (word.getLsbD 8) = .loader) := by
    cases word.getLsbD 8 <;> rfl
  have hrow : (frameState s word rest 6).running = true := frameState_running hrun hpull 6
  have hrun' : { frameState s word rest 6 with hostPull := true }.running = true := hrow
  refine .cons (t := { frameState s word rest 6 with hostPull := true }) (.single fun sch => ?_) (.single fun sch => ?_)
  · obtain ⟨hfree, -⟩ := hostMove { frameState s word rest 6 with schedule := sch } true hrow
    exact hfree (.inl rfl)
  · obtain ⟨hlow, -⟩ := Transmitter.rearmPollAndFinish
      { frameState s word rest 6 with hostPull := true, schedule := sch } false hrun' rfl rfl
    rw [hterm]
    exact hlow (.inl rfl)

end Frame

end Sys2Proof.Machine

/-! ### The obligations on runs -/

namespace Sys2Proof.Machine.Transmitter

/-- Settles O55: one poll leaves the block as it is, so any number does. -/
theorem waitsHaveNoTimeout : Obligations.WaitsHaveNoTimeout := by
  intro s n hrun ha hwait
  have hpoll : Leads [.seq] s s := .single fun sch => by
    obtain ⟨hq, hl⟩ | ⟨hq, hl⟩ := hwait
    · obtain ⟨-, -, hlow⟩ := handshakePoll { s with schedule := sch } false hrun hq hl
      exact hlow ha rfl
    · obtain ⟨-, hhigh⟩ := rearmPollAndFinish { s with schedule := sch } true hrun hq hl
      exact hhigh rfl ha
  simpa using hpoll.replicate n s.schedule

/-- Settles O57: acceptance writes no line, and the poll of the parked line takes the abort exit at either level. -/
theorem abortedCommandWritesNoLine : Obligations.AbortedCommandWritesNoLine := by
  intro s word rest hrun hq hparked ha hp hv
  have hreleased : s.writeReleased = true := writeReleased_of_lineParked hparked (by simp [hq])
  have hlevel : s.wrLevel = .level (!s.hostPull) := wrLevel_of_writeReleased hreleased
  have hrun' : (s.withAccepted word rest).running = true := withAccepted_running hrun word rest
  have hexit : Leads [.seq] (s.withAccepted word rest) { s.withAccepted word rest with
      tmrRun := false, cnt := signedValue s.cfg.cntWidth (Config.freeCnt s.draws), draws := s.draws + 1
      gie := true, outcome := .aborted, seqState := .idle } := .single fun sch => by
    obtain ⟨habort, -⟩ := handshakePoll { s.withAccepted word rest with schedule := sch } _ hrun' rfl hlevel
    exact habort ha
  exact ⟨_, ((leads_accept hrun hq hv hp).cons hexit) s.schedule, rfl, rfl, rfl, rfl, rfl, rfl, rfl, rfl⟩

/-- Settles O58. -/
theorem frameLeavesTheTraceOfItsByte : Obligations.FrameLeavesTheTraceOfItsByte := by
  intro s word rest j hready hp hv
  have hrun := leads_frame hready hv hp j []
  rw [List.append_nil] at hrun
  exact ⟨_, hrun, rfl⟩

/-- Settles O59: the finish follows the last row of the trace. -/
theorem commandSendsItsByteAndReturnsToIdle : Obligations.CommandSendsItsByteAndReturnsToIdle := by
  intro s word rest hready hp hv
  obtain ⟨hrun, -, -, -, hpull, -, -⟩ := (readyForFrame_iff s).1 hready
  exact (leads_frame hready hv hp 6).append (leads_finish hrun hpull) s.schedule

end Sys2Proof.Machine.Transmitter

/-! ## The commands (43_commands.md) -/

namespace Sys2Proof.Machine

variable {s : State}

/-! ### What a command leads to (R160 to R162) -/

/-- From a state that may step, a command records no fault of its own. -/
theorem exec_of_running (hrun : s.running = true) (i : Instr) : exec i s = .next (afterCommand i s) := by
  rw [exec_eq_checked, checked_eq_next_iff]
  exact ⟨hrun, afterCommand_faultOf i (faultOf_of_running hrun), rfl⟩

theorem afterCommand_txl (hq : s.seqState = .idle) (imm8 : Byte) :
    afterCommand (.txl imm8) s = accepted .loader imm8 s :=
  if_pos (by simp [State.cmdReady, State.busy, hq])

theorem afterCommand_txc (hq : s.seqState = .idle) (imm8 : Byte) :
    afterCommand (.txc imm8) s = accepted .commandMode imm8 s :=
  if_pos (by simp [State.cmdReady, State.busy, hq])

/-- Acceptance in full (R121): an offset that fits the counter is loaded as it is. -/
theorem accepted_of_offset_lt (hrun : s.running = true) (ho : s.cfg.offsetTicks < 2 ^ (s.cfg.cntWidth - 1))
    (md : Mode) (d : Byte) :
    accepted md d s = { s with
      mode := md, data := d, gie := false, cnt := s.cfg.offsetTicks, outcome := .none, seqState := .waitHs } := by
  obtain ⟨hadm, -⟩ := (running_iff s).1 hrun
  have hload : signedValue s.cfg.cntWidth s.cfg.offsetTicks = s.cfg.offsetTicks := signedValue_offset_of_lt hadm ho
  rw [← hload]
  rfl

end Sys2Proof.Machine

/-! ### The obligations on commands -/

namespace Sys2Proof.Machine.Transmitter

/-- Settles O14. -/
theorem busyBlockTakesNoCommand : Obligations.BusyBlockTakesNoCommand := by
  intro i s hrun hq
  rw [exec_of_running hrun, afterCommand_busy hq]

/-- Settles O12. -/
theorem txlIsAccepted : Obligations.TxlIsAccepted := by
  intro imm8 s hrun hq ho
  rw [exec_of_running hrun, afterCommand_txl hq, accepted_of_offset_lt hrun ho]

/-- Settles O13. -/
theorem txcIsAccepted : Obligations.TxcIsAccepted := by
  intro imm8 s hrun hq ho
  rw [exec_of_running hrun, afterCommand_txc hq, accepted_of_offset_lt hrun ho]

end Sys2Proof.Machine.Transmitter

/-! ## Progress (60_exceptions.md) -/

namespace Sys2Proof.Machine.Transmitter

/-- Settles O56: the ticks left to the deadline, and the threshold reads as itself (R110). -/
theorem ticksReachTheDeadline : Obligations.TicksReachTheDeadline := by
  intro s k hrun ht hk he hle
  obtain ⟨hadm, -⟩ := (running_iff s).1 hrun
  have hleft : s.cnt + ((threshold s.cfg k : Int) - s.cnt).toNat = threshold s.cfg k := by omega
  constructor
  · have hticks := leads_ticks hrun ht hk he _ hleft s.schedule
    rwa [List.length_replicate] at hticks
  · exact (reached_iff _ _).2 (signedValue_threshold hadm k).ge

end Sys2Proof.Machine.Transmitter

/-! ## Reset and hazards (70_reset_and_hazards.md) -/

namespace Sys2Proof.Machine

variable {s t : State} {m : Move} {k : Fin 6}

/-! ### An idle block without a command (R201) -/

/-- There is a word to take exactly where `CMD_VALID` is 1. -/
theorem fetch_eq_none_iff (s : State) : s.fetch = none ↔ s.cmdValid = false := by
  unfold State.fetch State.cmdValid
  cases s.presenting <;> cases s.program <;> simp

/-! ### The ticks of a frame (R212) -/

/-- The states from ARM to the end of SETTLE. -/
def inFrame (q : SeqState) : Prop :=
  q = .arm ∨ (deadlineOf q).isSome = true

theorem ne_waitRearm_of_inFrame {q : SeqState} (hq : inFrame q) : q ≠ .waitRearm := by
  rintro rfl
  simp [inFrame, deadlineOf] at hq

/-- A tick that a deadline allows starts below that deadline's last count (R109). -/
theorem cnt_lt_of_tickAllowed (hs : s.countKept = true) (hk : deadlineOf s.seqState = some k)
    (htick : s.tickAllowed = true) : s.cnt < (threshold s.cfg k : Int) + s.cfg.latMax := by
  obtain ⟨-, -, he, -⟩ := (countKept_iff s).1 hs
  obtain ⟨-, hbelow⟩ := (tickAllowed_iff s).1 htick
  by_cases hr : s.reached k = true
  · exact he ▸ hbelow k hk hr
  · rw [reached_iff_of_countKept hs] at hr
    omega

/-- A tick inside its slot adds one to the count without wrapping (R110). -/
theorem signedValue_tick (hs : s.countKept = true) (hk : deadlineOf s.seqState = some k)
    (htick : s.tickAllowed = true) : signedValue s.cfg.cntWidth (s.cnt + 1) = s.cnt + 1 := by
  obtain ⟨ha, -⟩ := (countKept_iff s).1 hs
  obtain ⟨-, -, hw⟩ := (admitted_iff _).1 ha
  obtain ⟨hwidth, -⟩ := (widthAdmitted_iff _).1 hw
  have hlt := cnt_lt_of_tickAllowed hs hk htick
  have htop := threshold_add_latMax_lt ha k
  obtain ⟨hmin, -⟩ := count_bounds_of_countKept hs hk
  have hfloor := slotFloor_ge ha k
  exact signedValue_eq_self hwidth (by omega) (by omega)

/-- The timer is stopped in ARM, so inside a frame a tick belongs to a deadline state (R27). -/
theorem exists_deadline_of_tick (hm : s.timerMatches = true) (hq : inFrame s.seqState) (htick : s.tickAllowed = true) :
    ∃ k, deadlineOf s.seqState = some k := by
  obtain harm | hk := hq
  · obtain ⟨hrun, -⟩ := (tickAllowed_iff s).1 htick
    rw [(timerMatches_iff s).1 hm, harm] at hrun
    cases hrun
  · exact Option.isSome_iff_exists.1 hk

/-- Inside a frame the timer alone writes the count, one tick at a time. -/
theorem Effect.cnt_cases_of_inFrame (h : Effect s m t) (hreset : m ≠ .reset) (hm : s.timerMatches = true)
    (hs : s.countKept = true) (hq : inFrame s.seqState) : t.cnt = s.cnt ∨ t.cnt = s.cnt + 1 := by
  cases h with
  | tick htick =>
    obtain ⟨k, hk⟩ := exists_deadline_of_tick hm hq htick
    exact .inr (signedValue_tick hs hk htick)
  | accept _ _ hq' | aborted _ hq' | finish _ hq' => simp [hq', inFrame, deadlineOf] at hq
  | reset => exact absurd rfl hreset
  | _ => exact .inl rfl

/-- Short of a reset event a frame is left by SETTLE's action alone, with the count between `T_5` and its last one. -/
theorem Effect.inFrame_or_settled (h : Effect s m t) (hreset : m ≠ .reset) (hs : s.countKept = true)
    (hq : inFrame s.seqState) :
    inFrame t.seqState ∨ t.seqState = .waitRearm ∧ (threshold s.cfg 5 : Int) ≤ t.cnt ∧
      t.cnt ≤ (threshold s.cfg 5 : Int) + s.cfg.latMax := by
  cases h with
  | settle hsettle hr =>
    obtain ⟨-, hmax⟩ := count_bounds_of_countKept hs (k := 5) (congrArg _ hsettle)
    exact .inr ⟨rfl, (reached_iff_of_countKept hs).1 hr, hmax⟩
  | arm | slot0 | slot1 | slot2 | slot3 | release => exact .inl (.inr rfl)
  | accept _ _ hq' | aborted _ hq' | handshake _ hq' | finish _ hq' => simp [hq', inFrame, deadlineOf] at hq
  | reset => exact absurd rfl hreset
  | _ => exact .inl hq

/-- A step that changes the count by at most one tick adds its change to the ticks of the run. -/
theorem cnt_add_ticksIn_succ (n : Nat) (h : step s = .next t) (hcnt : t.cnt = s.cnt ∨ t.cnt = s.cnt + 1) :
    s.cnt + ticksIn (n + 1) s = t.cnt + ticksIn n t := by
  rw [ticksIn_succ h]
  split <;> push_cast <;> omega

/-- A block in `WAIT_REARM` has settled in no steps and in no other number of steps. -/
theorem eq_zero_of_settlesIn {n : Nat} (h : settlesIn n s = true) (hq : s.seqState = .waitRearm) : n = 0 := by
  cases n with
  | zero => rfl
  | succ n =>
    obtain ⟨hne, -⟩ := settlesIn_succ h
    exact absurd hq hne

/-- The count at which a frame settles, by induction on the steps up to there: a step inside the frame passes the sum
on, and the step that ends it is the last one. -/
theorem settled_count {n : Nat} (hm : s.timerMatches = true) (hs : s.countKept = true) (hq : inFrame s.seqState)
    (hn : settlesIn n s = true) :
    (threshold s.cfg 5 : Int) ≤ s.cnt + ticksIn n s ∧
      s.cnt + ticksIn n s ≤ (threshold s.cfg 5 : Int) + s.cfg.latMax := by
  induction n generalizing s with
  | zero => exact absurd ((settlesIn_zero s).1 hn) (ne_waitRearm_of_inFrame hq)
  | succ n ih =>
    obtain ⟨-, hreset, t, h, hn'⟩ := settlesIn_succ hn
    obtain ⟨sch, d, he⟩ := step_effect_frame h
    have hcnt : t.cnt = s.cnt ∨ t.cnt = s.cnt + 1 := he.cnt_cases_of_inFrame hreset hm hs hq
    rw [cnt_add_ticksIn_succ n h hcnt]
    obtain hq' | ⟨hrearm, hbounds⟩ := he.inFrame_or_settled hreset hs hq
    · rw [← step_cfg_eq h]
      exact ih (he.keeps_timerMatches hm) (he.keeps_countKept hm hs) hq' hn'
    · rw [eq_zero_of_settlesIn hn' hrearm]
      simpa using hbounds

end Sys2Proof.Machine

/-! ### The obligations on reset and hazards -/

namespace Sys2Proof.Machine.Transmitter

/-- Settles O60: ARM starts at the offset. -/
theorem frameTakesItsTicks : Obligations.FrameTakesItsTicks := by
  intro s n hm hs hn hq
  obtain ⟨hmin, hmax⟩ := settled_count hm hs hq hn
  refine ⟨hmin, hmax, fun harm hlat => ?_⟩
  have hcnt : s.cnt = s.cfg.offsetTicks := cnt_of_countKept hs (.inr harm)
  omega

/-- Settles O20: with no word to take, `SEQ` has no step. -/
theorem idleBlockWaitsForACommand : Obligations.IdleBlockWaitsForACommand := by
  intro s hrun hq hv
  have hafter : after .seq s = s := after_seq_unfetched hq ((fetch_eq_none_iff s).2 hv)
  exact step_withMove_eq_of_after hrun hafter (faultOf_of_running hrun)

/-- Settles O10: the reset table's `WR_DIR` and `STATE` record no fault, whatever the host does. -/
theorem resetEventSetsTheResetTable : Obligations.ResetEventSetsTheResetTable := by
  intro s hrun
  exact step_withMove_eq_of_after hrun rfl (faultOf_none nofun rfl)

end Sys2Proof.Machine.Transmitter

/-! ## The test vectors of the encoding (95_test_vectors.md section 2.1) -/

namespace Sys2Proof

/-- A number that is the word of a command decodes to that command. -/
theorem decodeBits_eq_ok_of_toNat_encode {n : Nat} {i : Instr} (h : (encode i).toNat = n) :
    decodeBits n = .ok i := by
  rw [← h, decodeBits_toNat_encode]

/-- Settles O1: each number is the word that `encode` gives its command. -/
theorem sampleWordsDecode : Obligations.SampleWordsDecode := by
  refine ⟨?_, ?_, ?_, ?_, ?_, ?_, ?_⟩ <;> exact decodeBits_eq_ok_of_toNat_encode (by decide)

end Sys2Proof
